-- ==== Sys2Proof/Word.lean ====
section
/-! DEFINITION. The word types of the AT416 model: the widths of chapter 12 (Formats and Register Window) and the
numbers that name one of a fixed set of like things (00_scope.md, Table 0.2). -/

namespace Sys2Proof

/-- A byte of a frame, a home image or a change block. -/
abbrev Byte := BitVec 8

/-- A 16-bit field. -/
abbrev Half := BitVec 16

/-- A 32-bit register, bus word, address or seconds count. -/
abbrev Word := BitVec 32

/-- A media identifier: the 56 bits numbered as in R135 (serial in bits 0 to 39, issuer code in bits 40 to 55). -/
abbrev Ident := BitVec 56

/-- An account key (R10). -/
abbrev Key := BitVec 16

/-- A gate line, 0 to 15. -/
abbrev LineNo := Fin 16

/-- An account slot, 0 to 255 (R18). -/
abbrev SlotNo := Fin 256

/-- A product cell, 0 to 1023 (R47). -/
abbrev CellNo := Fin 1024

/-- A tap context, 0 to 11 (R96). -/
abbrev CtxNo := Fin 12

/-- A gate group, 0 to 7. -/
abbrev Group := Fin 8

/-- A fare class, 0 to 7. -/
abbrev ClassNo := Fin 8

end Sys2Proof
end

