-- ==== Sys2Proof/Syntax.lean ====
section
/-! DEFINITION. The commands and events that reach the block: one constructor of `Instr` for each row of
spec/opcode_table.json, with the operands the row's rule gives it. -/

namespace Sys2Proof

/-- What the memory answers to one beat (04, section 4.3): a data word with one parity bit for each byte lane, lane 0
in bit 0; an acknowledgement of a write; or an error response. -/
inductive BusResponse where
  | data (word : Word) (parity : BitVec 4)
  | ack
  | error
  deriving DecidableEq, Repr

/-- How an operation in flight is brought to an end: by the response to its outstanding beat, or by the expiry of its
response timer (R63, R64). -/
inductive BusEnd where
  | response (r : BusResponse)
  | timeout
  deriving DecidableEq, Repr

/-- The registers of several words that are read through a copy (R197). -/
inductive MultiReg where
  | stationClock
  | lastFault
  | tariffView
  | lastWatch
  | rangeRule (r : Fin 16)
  | blockMark (m : Fin 16)
  | tapqStatus (c : CtxNo)
  deriving DecidableEq, Repr

/-- One constructor per row of spec/opcode_table.json. `op` is the place of the operation among the operations in
flight, oldest first; `beat` the place of the beat among the beats left outstanding on the bus. The commands that a
change block carries are the event at which the last word of the block's BLOCK READ arrives (R147). -/
inductive Instr where
  | powerOn
  | hold
  | release
  | initialisationComplete
  | run
  | stop
  | evictAll
  | drainComplete
  | keyShapeWrite (value : Word)
  | homeBaseWrite (value : Word)
  | stationClockWrite (value : Word)
  | attnCauseRead
  | attnPendingWrite (value : Word)
  | attnLevelWrite (value : Word)
  | attnCoalesceWrite (threshold window : Nat)
  | lineEventsWrite (value : Word)
  | lineEnable (line : LineNo) (value : Word)
  | lineDisable (line : LineNo) (value : Word)
  | multiwordLowestRead (reg : MultiReg)
  | registerWrite (offset : Nat) (value : Word)
  | start
  | resume
  | suspend
  | abort
  | changeCtrlRefused (code : Word)
  | urgentBlock
  | unmark
  | peek
  | urgentFlush
  | retryWrite
  | urgentUnknownCode (code : Word)
  | urgentCommandLost (code : Word)
  | tap (line : LineNo) (sequence direction : Byte) (issuer : BitVec 16) (serial : BitVec 40) (check : Byte)
  | pollReplyFixed (line : LineNo)
  | poll (line : LineNo)
  | repeatReplyFixed (line : LineNo)
  | repeatFrame (line : LineNo)
  | frameCutShort (line : LineNo)
  | unknownOpcode (line : LineNo) (opcode : Byte)
  | deadlineExpiry (line : LineNo)
  | fetchComplete (op : Nat) (word : Word) (parity : BitVec 4)
  | fetchFail (op : Nat) (ending : BusEnd)
  | evictionWriteComplete (op : Nat) (ending : BusEnd)
  | flushWriteComplete (op : Nat) (ending : BusEnd)
  | cleanerWrite
  | reclaim
  | portBegin
  | portTimeout (op : Nat)
  | lateResponse (beat : Nat) (response : BusResponse)
  | nop (op : Nat) (word : Word) (parity : BitVec 4)
  | enroll (op : Nat) (word : Word) (parity : BitVec 4)
  | amend (op : Nat) (word : Word) (parity : BitVec 4)
  | adjust (op : Nat) (word : Word) (parity : BitVec 4)
  | addProduct (op : Nat) (word : Word) (parity : BitVec 4)
  | removeProduct (op : Nat) (word : Word) (parity : BitVec 4)
  | block (op : Nat) (word : Word) (parity : BitVec 4)
  | unblock (op : Nat) (word : Word) (parity : BitVec 4)
  | retire (op : Nat) (word : Word) (parity : BitVec 4)
  | flush (op : Nat) (word : Word) (parity : BitVec 4)
  | flushAll (op : Nat) (word : Word) (parity : BitVec 4)
  | loadClass (op : Nat) (word : Word) (parity : BitVec 4)
  | loadFares (op : Nat) (word : Word) (parity : BitVec 4)
  | copyActive (op : Nat) (word : Word) (parity : BitVec 4)
  | switchTariff (op : Nat) (word : Word) (parity : BitVec 4)
  | setRange (op : Nat) (word : Word) (parity : BitVec 4)
  | blockCheckFailed (op : Nat) (word : Word) (parity : BitVec 4)
  | resumeRereadDone (op : Nat) (word : Word) (parity : BitVec 4)
  | blockReadFail (op : Nat) (ending : BusEnd)
  | abandonedReadEnd (op : Nat) (ending : BusEnd)
  | statusWriteComplete (op : Nat)
  | statusWriteFail (op : Nat) (ending : BusEnd)
  | coalesceWindowExpiry
  | clockAdvance
  | beatResponse (op : Nat) (response : BusResponse)
  | frameStart (line : LineNo)
  | frameWithoutOpcode (line : LineNo)
  deriving DecidableEq, Repr

end Sys2Proof
end

