-- ==== Sys2Proof/Machine/Bits.lean ====
section
/-! DEFINITION. Bit and byte helpers: parity of the byte lanes (R61, R71), saturating counts (00 Conventions),
little-endian fields of station-bus memory (00 Conventions, chapter 12). -/

namespace Sys2Proof

/-- One parity bit for each byte lane, lane 0 in bit 0, set so that the nine bits of the lane hold an odd number of
ones (R61). -/
def laneParity (b : Byte) : Bool :=
  !(b[0] ^^ b[1] ^^ b[2] ^^ b[3] ^^ b[4] ^^ b[5] ^^ b[6] ^^ b[7])

/-- The odd parity of the four byte lanes of a word (R61, R71). -/
def oddParity (w : Word) : BitVec 4 :=
  BitVec.ofBool (laneParity (w.extractLsb' 24 8)) ++ BitVec.ofBool (laneParity (w.extractLsb' 16 8)) ++
    BitVec.ofBool (laneParity (w.extractLsb' 8 8)) ++ BitVec.ofBool (laneParity (w.extractLsb' 0 8))

/-- A response that lets an operation go on or end OK: an acknowledgement, or a data word of good parity. -/
def BusResponse.good : BusResponse → Bool
  | .data w p => p == oddParity w
  | .ack => true
  | .error => false

/-- An end that makes the operation's outcome other than OK. -/
def BusEnd.failing : BusEnd → Bool
  | .response r => !r.good
  | .timeout => true

/-- A 16-bit saturating count (00 Conventions; R93, R67, R65). -/
def satInc16 (x : Half) : Half := if x = 0xFFFF#16 then x else x + 1

/-- An 8-bit saturating count (R5). -/
def satInc8 (x : Byte) : Byte := if x = 0xFF#8 then x else x + 1

/-- Adds one saturating 8-bit count to another, stopping at 255 (R31, step 5). -/
def satAdd8 (x y : Byte) : Byte := BitVec.ofNat 8 (min 255 (x.toNat + y.toNat))

/-- Byte `i` of a list of bytes; 0 beyond its end. -/
def byteAt (l : List Byte) (i : Nat) : Byte := l.getD i 0#8

/-- The little-endian 16-bit field at offset `i`. -/
def halfAt (l : List Byte) (i : Nat) : Half := byteAt l (i + 1) ++ byteAt l i

/-- The little-endian 32-bit field at offset `i`. -/
def wordAt (l : List Byte) (i : Nat) : Word :=
  byteAt l (i + 3) ++ byteAt l (i + 2) ++ byteAt l (i + 1) ++ byteAt l i

/-- The media identifier in the seven bytes at offset `i`: serial bytes 0 to 4, issuer bytes 5 and 6 (chapter 12). -/
def identAt (l : List Byte) (i : Nat) : Ident :=
  byteAt l (i + 6) ++ byteAt l (i + 5) ++ byteAt l (i + 4) ++ byteAt l (i + 3) ++ byteAt l (i + 2) ++
    byteAt l (i + 1) ++ byteAt l i

/-- The two bytes of a 16-bit field, little-endian. -/
def halfBytes (h : Half) : List Byte := [h.extractLsb' 0 8, h.extractLsb' 8 8]

/-- The four bytes of a 32-bit word, little-endian. -/
def wordBytes (w : Word) : List Byte :=
  [w.extractLsb' 0 8, w.extractLsb' 8 8, w.extractLsb' 16 8, w.extractLsb' 24 8]

/-- The seven bytes of a media identifier in memory. -/
def identBytes (x : Ident) : List Byte :=
  [x.extractLsb' 0 8, x.extractLsb' 8 8, x.extractLsb' 16 8, x.extractLsb' 24 8, x.extractLsb' 32 8,
    x.extractLsb' 40 8, x.extractLsb' 48 8]

/-- The bytes of a run of words in increasing address order. -/
def wordsBytes (ws : List Word) : List Byte := ws.flatMap wordBytes

/-- The words of a run of bytes, four bytes a word; bytes short of a word are dropped. -/
def bytesWords : List Byte → List Word
  | a :: b :: c :: d :: rest => (d ++ c ++ b ++ a) :: bytesWords rest
  | _ => []

/-- The exclusive-OR of a run of bytes (the check bytes of section 12.3). -/
def xorBytes (l : List Byte) : Byte := l.foldl (· ^^^ ·) 0#8

/-- The media identifier of an issuer code and a serial (R135). -/
def mkIdent (issuer : BitVec 16) (serial : BitVec 40) : Ident := issuer ++ serial

end Sys2Proof
end

