-- ==== Sys2Proof/WellFormed.lean ====
section
/-! DEFINITION. The checks on a command's operands that its type does not make: a command that fails one names no
event of the device. -/

namespace Sys2Proof

/-- At most four operations are in flight (R60), so an operation's place is 0 to 3. -/
def opInRange (op : Nat) : Bool := op < 4

/-- The last word of a read that ends OK: the place in range and the parity good. -/
def lastWordGood (op : Nat) (w : Word) (p : BitVec 4) : Bool := opInRange op && p == oddParity w

/-- The checks on a command's operands, each from the rule of its row. -/
def Instr.wellFormed : Instr → Bool
  | .lineEnable _ v => v[0]                          -- R75: a write that sets enabled to yes
  | .lineDisable _ v => !v[0]                        -- R91: a write that sets enabled to no
  | .registerWrite off _ => off < 0x660 && off % 4 == 0   -- 12.4, R71
  | .urgentUnknownCode c => !(1 ≤ c.toNat && c.toNat ≤ 5)  -- R166, Table 12.7
  | .unknownOpcode _ o => o != 0x3C#8 && o != 0x5A#8 && o != 0x69#8  -- R77, section 12.3
  | .fetchComplete op w p => lastWordGood op w p
  | .fetchFail op e => opInRange op && e.failing
  | .evictionWriteComplete op _ => opInRange op
  | .flushWriteComplete op _ => opInRange op
  | .portTimeout op => opInRange op
  | .nop op w p => lastWordGood op w p
  | .enroll op w p => lastWordGood op w p
  | .amend op w p => lastWordGood op w p
  | .adjust op w p => lastWordGood op w p
  | .addProduct op w p => lastWordGood op w p
  | .removeProduct op w p => lastWordGood op w p
  | .block op w p => lastWordGood op w p
  | .unblock op w p => lastWordGood op w p
  | .retire op w p => lastWordGood op w p
  | .flush op w p => lastWordGood op w p
  | .flushAll op w p => lastWordGood op w p
  | .loadClass op w p => lastWordGood op w p
  | .loadFares op w p => lastWordGood op w p
  | .copyActive op w p => lastWordGood op w p
  | .switchTariff op w p => lastWordGood op w p
  | .setRange op w p => lastWordGood op w p
  | .blockCheckFailed op w p => lastWordGood op w p
  | .resumeRereadDone op w p => lastWordGood op w p
  | .blockReadFail op e => opInRange op && e.failing
  | .abandonedReadEnd op _ => opInRange op
  | .statusWriteComplete op => opInRange op
  | .statusWriteFail op e => opInRange op && e.failing
  | .beatResponse op r => opInRange op && r.good
  | .powerOn | .hold | .release | .initialisationComplete | .run | .stop | .evictAll | .drainComplete => true
  | .keyShapeWrite _ | .homeBaseWrite _ | .stationClockWrite _ | .attnCauseRead | .attnPendingWrite _ => true
  | .attnLevelWrite _ | .attnCoalesceWrite _ _ | .lineEventsWrite _ | .multiwordLowestRead _ => true
  | .start | .resume | .suspend | .abort | .changeCtrlRefused _ => true
  | .urgentBlock | .unmark | .peek | .urgentFlush | .retryWrite | .urgentCommandLost _ => true
  | .tap _ _ _ _ _ _ | .pollReplyFixed _ | .poll _ | .repeatReplyFixed _ | .repeatFrame _ => true
  | .frameCutShort _ | .deadlineExpiry _ | .cleanerWrite | .reclaim | .portBegin | .lateResponse _ _ => true
  | .coalesceWindowExpiry | .clockAdvance | .frameStart _ | .frameWithoutOpcode _ => true

end Sys2Proof
end

