-- ==== Sys2Proof/Config.lean ====
section
/-! DEFINITION. What an implementation fixes and the spec leaves open: constants with no body, so that nothing can be
proved of their values (assumption log entries 7, 9 and 10). -/

namespace Sys2Proof.Config

/-- Free value (log entry 7; R63, R69): whether the station-bus memory took the word of a write beat whose operation
ended without an acknowledgement of it. The argument is the state's counter of free values. -/
opaque busTook : Nat → Bool

/-- Free value (log entry 9; R11): the Key Shape that the device holds after a write, at a time when writes take
effect, of a value above 8. The arguments are the counter of free values and the value written. -/
opaque keyShapeBeyond : Nat → Word → Fin 9

/-- A field of a register word: the place of its lowest bit, and its width. -/
structure Field where
  pos : Nat
  width : Nat
  deriving DecidableEq, Repr, Inhabited

/-- Where the four fields of ATTN_COALESCE stand in its word, and whether HOLDING is the code 1 of the state field (else
QUIET is). -/
structure CoalesceLayout where
  threshold : Field
  window : Field
  state : Field
  count : Field
  holdingIsOne : Bool
  deriving DecidableEq, Repr, Inhabited

/-- Free value (log entry 10; R184): the layout of ATTN_COALESCE, which Tables 12.7 and 12.8 do not give. -/
opaque coalesceLayout : CoalesceLayout

end Sys2Proof.Config
end

