-- ==== Sys2Proof/Machine/State.lean ====
section
/-! DEFINITION. The state of the AT416: every register, list, counter, mode and pin that the spec gives the device, as
plain data; its reset value (power-on); and the reasons a command can stop. -/

namespace Sys2Proof.Machine

/-! ## Records and products (chapter 1) -/

/-- R8: the three states of a record. -/
inductive RecState where
  | empty | active | blocked
  deriving DecidableEq, Repr

/-- Table 1.2: whether the card is inside the paid area. -/
inductive Trip where
  | out | within
  deriving DecidableEq, Repr

/-- Table 1.4: what a product entry pays with. -/
inductive ProductKind where
  | periodPass | rideBundle
  deriving DecidableEq, Repr

/-- R6, Table 1.4: a product entry. -/
structure ProductEntry where
  kind : ProductKind
  zoneMask : Byte
  tag : Half
  firstDay : Half
  lastDay : Half
  rides : Half
  uses : Half
  deriving DecidableEq, Repr

/-- The contents that the model gives a product cell before anything is written into it (log entry 14). -/
def ProductEntry.zero : ProductEntry :=
  { kind := .periodPass, zoneMask := 0, tag := 0, firstDay := 0, lastDay := 0, rides := 0, uses := 0 }

/-- R1 to R5, Tables 1.1 to 1.3: the core of an account record. The product list stands in the cells of the slot. -/
structure Record where
  ident : Ident
  state : RecState
  fareClass : ClassNo
  balance : Int
  generation : Half
  trip : Trip
  entryGroup : Group
  entryEpoch : Byte
  entryStamp : Word
  tokens : Fin 16
  refillMark : Word
  lastTapStamp : Word
  lastTapLine : LineNo
  tapCount : Half
  deadlinePasses : Byte
  blockedTaps : Byte
  watchHits : Byte
  deriving DecidableEq, Repr

/-- R9: the EMPTY image, with a generation. -/
def Record.empty (generation : Half) : Record :=
  { ident := 0, state := .empty, fareClass := 0, balance := 0, generation := generation, trip := .out,
    entryGroup := 0, entryEpoch := 0, entryStamp := 0, tokens := 0, refillMark := 0, lastTapStamp := 0,
    lastTapLine := 0, tapCount := 0, deadlinePasses := 0, blockedTaps := 0, watchHits := 0 }

/-! ## The account cache (chapter 2) -/

/-- An entry of a waiting list or of the slot-wait list: a tap context or the change request (R26, R41). -/
inductive Waiter where
  | tap (c : CtxNo)
  | change
  deriving DecidableEq, Repr

/-- Who waits on a slot's write (Table 2.1, R38): a change FLUSH, FLUSH ALL, RETIRE, the Urgent Command Unit, drain. -/
inductive Requester where
  | changeFlush | flushAll | retire | urgent | drain
  deriving DecidableEq, Repr

/-- R18: the four states of a slot. -/
inductive SlotState where
  | free | fetching | resident | evicting
  deriving DecidableEq, Repr

/-- R18, Table 2.1: an account slot. `writeReqs` wait on the write queued or in flight, `nextReqs` on the next write. -/
structure Slot where
  state : SlotState
  key : Key
  record : Record
  cells : List CellNo
  dirty : Bool
  writeInFlight : Bool
  wbFault : Bool
  rescued : Bool
  cleaner : Bool
  passes : Byte
  waiting : List Waiter
  writeReqs : List Requester
  nextReqs : List Requester
  deriving DecidableEq, Repr

/-- A FREE slot: flags clear, lists empty, pending deadline passes 0 (R19); it holds no key and no record, and those
two fields read zero in the model (log entry 14). -/
def Slot.unused : Slot :=
  { state := .free, key := 0, record := Record.empty 0, cells := [], dirty := false, writeInFlight := false,
    wbFault := false, rescued := false, cleaner := false, passes := 0, waiting := [], writeReqs := [], nextReqs := [] }

/-- R46, Table 2.5: the four cache counters, and the cleaner's count of writes in flight (R40). -/
structure CacheCounts where
  misses : Half
  cleanEvictions : Half
  dirtyEvictions : Half
  rescues : Half
  cleanerWrites : Nat
  deriving DecidableEq, Repr

/-- R47: the Product Cell Pool: the free-cell list, head first, and the 1024 cells. -/
structure CellPool where
  free : List CellNo
  entries : Vector ProductEntry 1024
  deriving DecidableEq, Repr

/-! ## The Home Store Port (chapter 4) -/

/-- R58, Table 4.1: a memory operation asked of the port. A WRITE-BACK carries the words of its snapshot's image; a
BLOCK READ is marked when an ABORT has abandoned it (R68, R145). -/
inductive Request where
  | fetch (slot : SlotNo) (key : Key) (addr : Word)
  | writeBack (slot : SlotNo) (key : Key) (addr : Word) (image : List Word)
  | blockRead (addr : Word) (abandoned : Bool)
  | statusWrite (addr : Word) (result : Word) (status : Half)
  deriving DecidableEq, Repr

/-- R60, R61, R62, R64: an operation in flight: its request, the time base at its beginning, the words read so far and
the write beats acknowledged so far. -/
structure Op where
  request : Request
  started : Word
  words : List Word
  acked : Nat
  deriving DecidableEq, Repr

/-- One beat as the device's master drives it (section 4.3): address, direction, data, and the byte lanes written. -/
structure Beat where
  addr : Word
  write : Bool
  data : Word
  lanes : BitVec 4
  deriving DecidableEq, Repr

/-- Table 4.4: the kind of the last fault. -/
inductive OpKind where
  | fetch | writeBack | blockRead | statusWrite
  deriving DecidableEq, Repr

/-- Table 4.2: the outcome of an operation. -/
inductive OpOutcome where
  | ok | busError | parity | timeout
  deriving DecidableEq, Repr

/-- R67, Table 4.4: the Last Fault record. -/
structure LastFault where
  kind : Option OpKind
  place : Word
  outcome : OpOutcome
  deriving DecidableEq, Repr

/-- The Last Fault record after a reset or a host write: NONE, 0, OK (Table 4.4). -/
def LastFault.none : LastFault := { kind := Option.none, place := 0, outcome := .ok }

/-- The Home Store Port. `stray` holds the beats left outstanding on the bus by a timeout or a reset (R64, R69). -/
structure Port where
  list : List Request
  inFlight : List Op
  stray : List Beat
  lastFault : LastFault
  faults : Half
  late : Half
  deriving DecidableEq, Repr

/-! ## Gate lines and taps (chapters 5 and 6) -/

/-- R72: the mode of a line. -/
inductive Mode where
  | entry | exit | both
  deriving DecidableEq, Repr

/-- Table 6.1: the direction of a tap. -/
inductive Direction where
  | entry | exit
  deriving DecidableEq, Repr

/-- Table 6.4: the outcome of a verdict. -/
inductive VOutcome where
  | accept | refuse | retry | busy | deadlineAccept | deadlineRefuse | fault
  deriving DecidableEq, Repr

/-- Table 6.4: the reason of a verdict. -/
inductive Reason where
  | none | notEnrolled | blocked | rangeDeny | lowBalance | passback | velocity | direction | cellShort | slotShort
  | memFault | damaged | noContext | engineNotRunning | frameError
  deriving DecidableEq, Repr

/-- R122, Table 6.4: a verdict record. -/
structure Verdict where
  sequence : Byte
  outcome : VOutcome
  reason : Reason
  fare : Half
  balance : Int
  tag : Half
  rides : Half
  epoch : Byte
  deriving DecidableEq, Repr

/-- R72, Table 5.1: the configuration of a line; `accept` is the policy ACCEPT. -/
structure LineConfig where
  enabled : Bool
  group : Group
  mode : Mode
  deadline : Byte
  accept : Bool
  deriving DecidableEq, Repr

/-- R74: the five line states. -/
inductive LineState where
  | disabled | idle | inFlight | ready | taken
  deriving DecidableEq, Repr

/-- A running timer: the time base at its start and its duration in milliseconds (R178). -/
structure Timer where
  start : Word
  duration : Nat
  deriving DecidableEq, Repr

/-- The frame on a line (R76 to R78). `quiet`: select is high. `ignored`: select is low and what passes is not received
(it fell before the line was enabled, or the frame was abandoned). `receiving`: select is low and no reply is fixed.
`replying`: the opcode of a POLL (`isRepeat` false) or REPEAT has fixed the sixteen reply bytes; `carried` tells
whether they carry the held verdict. -/
inductive Frame where
  | quiet
  | ignored
  | receiving
  | replying (isRepeat : Bool) (reply : List Byte) (carried : Bool)
  deriving DecidableEq, Repr

/-- A gate line: configuration (R72), state (R74), counters (R93). `ctx` is the context of the tap in flight. -/
structure Line where
  config : LineConfig
  state : LineState
  ctx : Option CtxNo
  verdict : Option Verdict
  lastSeq : Option Byte
  timer : Option Timer
  frame : Frame
  tapsTaken : Half
  busy : Half
  overruns : Half
  frameErrors : Half
  deadlines : Half
  deriving DecidableEq, Repr

/-- Table 5.1: a line's configuration after a reset. -/
def LineConfig.reset : LineConfig :=
  { enabled := false, group := 0, mode := .both, deadline := 30, accept := false }

/-- A line after a reset (R72, R74, R93), with the frame the wire stands in. -/
def Line.reset (frame : Frame) : Line :=
  { config := LineConfig.reset, state := .disabled, ctx := none, verdict := none, lastSeq := none, timer := none,
    frame := frame, tapsTaken := 0, busy := 0, overruns := 0, frameErrors := 0, deadlines := 0 }

/-- Table 6.1: the rule action of a context, with the class of a CLASS rule. -/
inductive RuleMark where
  | none
  | cls (c : ClassNo)
  | watch
  deriving DecidableEq, Repr

/-- R96, Table 6.1: a tap context in use; `awaitRecord` is its state (AWAIT_RECORD, else AWAIT_SLOT). -/
structure TapContext where
  line : LineNo
  sequence : Byte
  direction : Direction
  ident : Ident
  key : Key
  group : Group
  mark : RuleMark
  arrival : Word
  awaitRecord : Bool
  deriving DecidableEq, Repr

/-! ## Tariff banks and range rules (chapter 7) -/

/-- R125, Table 7.1: a class entry, each parameter in the 16 bits in which it is loaded and viewed. -/
structure ClassEntry where
  minEntry : Half
  overdraft : Half
  percent : Half
  unmatched : Half
  passback : Half
  burst : Half
  refill : Half
  maxTrip : Half
  deriving DecidableEq, Repr

/-- Table 7.1: a class entry after a reset. -/
def ClassEntry.reset : ClassEntry :=
  { minEntry := 0, overdraft := 0, percent := 100, unmatched := 0, passback := 0, burst := 15, refill := 1,
    maxTrip := 65535 }

/-- R125, R126: a tariff bank: eight class entries and the fare matrix, row the entry group, column the exit group. -/
structure Bank where
  classes : Vector ClassEntry 8
  fares : Vector (Vector Half 8) 8
  deriving DecidableEq, Repr

/-- A bank after a reset (R125, R126). -/
def Bank.reset : Bank :=
  { classes := Vector.replicate 8 ClassEntry.reset, fares := Vector.replicate 8 (Vector.replicate 8 0) }

/-- R133: the selector of the tariff view: bank B or A, matrix row or class entry, its number. -/
structure ViewSel where
  bankB : Bool
  row : Bool
  number : Fin 8
  deriving DecidableEq, Repr

/-- R127, R133: the Tariff Unit's banks, active-bank indicator, epoch and view selector. -/
structure Tariff where
  bankA : Bank
  bankB : Bank
  activeB : Bool
  epoch : Byte
  view : ViewSel
  deriving DecidableEq, Repr

/-- Table 7.2: the action of a range rule. -/
inductive RangeAction where
  | deny | cls | watch
  deriving DecidableEq, Repr

/-- R134, Table 7.2: a range rule. -/
structure RangeRule where
  level : Fin 4
  base : Ident
  exponent : Fin 41
  action : RangeAction
  cls : ClassNo
  deriving DecidableEq, Repr

/-- Table 7.2: a rule after a reset. -/
def RangeRule.reset : RangeRule := { level := 0, base := 0, exponent := 0, action := .deny, cls := 0 }

/-- R137: the Last Watch register. -/
structure LastWatch where
  valid : Bool
  line : LineNo
  ident : Ident
  rule : Fin 16
  deriving DecidableEq, Repr

/-- Last Watch after a reset or a host write (R137). -/
def LastWatch.reset : LastWatch := { valid := false, line := 0, ident := 0, rule := 0 }

/-! ## The Change Unit (chapter 8) -/

/-- R140: the six states of the Change Unit. -/
inductive ChangeState where
  | idle | reading | waiting | storing | suspended | halted
  deriving DecidableEq, Repr

/-- R140: the pending stop. -/
inductive PendingStop where
  | none | suspend | abort
  deriving DecidableEq, Repr

/-- A change block as read (Table 12.3): the link with its bits 0 to 2 taken as 0, the command byte, the payload length
byte, bytes 12 to 18, the flags I, S and E, and the payload bytes read. -/
structure Block where
  link : Word
  command : Byte
  length : Byte
  ident : Ident
  flagI : Bool
  flagS : Bool
  flagE : Bool
  payload : List Byte
  deriving DecidableEq, Repr

/-- No block in progress: every field zero (log entry 14). -/
def Block.zero : Block :=
  { link := 0, command := 0, length := 0, ident := 0, flagI := false, flagS := false, flagE := false, payload := [] }

/-- R140: the Change Unit, with the block in progress and its key (R148), the mark of the read again of a RESUME
(R143), and the counts of FLUSH ALL (R158). -/
structure ChangeUnit where
  state : ChangeState
  listAddr : Word
  blockAddr : Word
  last : Word
  lastValid : Bool
  heldLink : Word
  stop : PendingStop
  abandoned : Bool
  refused : Bool
  rereading : Bool
  block : Block
  key : Key
  outstanding : Nat
  failures : Nat
  deriving DecidableEq, Repr

/-- The Change Unit after a reset (R140). -/
def ChangeUnit.reset : ChangeUnit :=
  { state := .idle, listAddr := 0, blockAddr := 0, last := 0, lastValid := false, heldLink := 0, stop := .none,
    abandoned := false, refused := false, rereading := false, block := Block.zero, key := 0, outstanding := 0,
    failures := 0 }

/-! ## The Urgent Command Unit (chapter 9) -/

/-- Table 9.1: the state of the Urgent Command Unit. -/
inductive UrgentState where
  | idle | busy | done
  deriving DecidableEq, Repr

/-- Table 9.2, Table 12.7: the results of the Urgent Command Unit. -/
inductive UrgentResult where
  | none | applied | marked | already | full | removed | absent | ok | notResident | memFault | clean | notFaulted
  | badCommand
  deriving DecidableEq, Repr

/-- R165, R166: the urgent registers; `command` is the code of the last command taken, `taken` the argument it copied. -/
structure Urgent where
  arg : Ident
  state : UrgentState
  command : Option Word
  result : UrgentResult
  value : Half
  lost : Bool
  taken : Ident
  deriving DecidableEq, Repr

/-- The urgent registers after a reset (R165). -/
def Urgent.reset : Urgent :=
  { arg := 0, state := .idle, command := none, result := .none, value := 0, lost := false, taken := 0 }

/-- R171: the Peek Window. -/
structure PeekWindow where
  valid : Bool
  key : Key
  slot : SlotNo
  dirty : Bool
  writeInFlight : Bool
  wbFault : Bool
  record : Record
  products : List ProductEntry
  deriving DecidableEq, Repr

/-- The Peek Window with valid clear, a key, and every other field zero (R171). -/
def PeekWindow.cleared (key : Key) : PeekWindow :=
  { valid := false, key := key, slot := 0, dirty := false, writeInFlight := false, wbFault := false,
    record := Record.empty 0, products := [] }

/-! ## Clock, attention, engine (chapters 10 and 11) -/

/-- R175, R178: the seconds count, the phase, 0 to 999, and the millisecond time base. -/
structure Clock where
  seconds : Word
  phase : Nat
  timeBase : Word
  deriving DecidableEq, Repr

/-- R179, Table 10.2: the twelve attention sources, in code order. -/
inductive Source where
  | chgDone | chgStopped | memFault | damaged | cellShort | slotShort | watch | lineEvent | urgentDone | deadlinePass
  | dayRoll | drainDone
  deriving DecidableEq, Repr

/-- R179, R180, R183, R184: pending flags, levels, and the coalescing part. -/
structure Attention where
  pending : BitVec 12
  levels : BitVec 24
  threshold : Nat
  window : Nat
  holding : Bool
  count : Nat
  windowStart : Word
  deriving DecidableEq, Repr

/-- The Attention Controller after a reset (R185). -/
def Attention.reset : Attention :=
  { pending := 0, levels := 0, threshold := 1, window := 0, holding := false, count := 0, windowStart := 0 }

/-- R186: the five engine states. -/
inductive EngineState where
  | held | initializing | stopped | running | draining
  deriving DecidableEq, Repr

/-- R186: the drain phase. -/
inductive DrainPhase where
  | none | ending | emptying
  deriving DecidableEq, Repr

/-- R186, R11, R12: Engine Control. -/
structure Engine where
  state : EngineState
  phase : DrainPhase
  unflushed : Nat
  keyShape : Fin 9
  homeBase : Word
  deriving DecidableEq, Repr

/-- Engine Control after a reset (R186, R11, R12). -/
def Engine.reset : Engine := { state := .held, phase := .none, unflushed := 0, keyShape := 0, homeBase := 0 }

/-- R197: the copies of the words other than the lowest of each multi-word register. -/
structure RegCopies where
  stationPhase : Word
  stationDay : Word
  faultPlace : Word
  tariffView : Vector Word 3
  lastWatch : Vector Word 2
  rangeRule : Vector (Vector Word 3) 16
  blockMark : Vector Word 16
  tapqStatus : Vector Word 12
  deriving DecidableEq, Repr

/-- Every copy 0 (R197). -/
def RegCopies.reset : RegCopies :=
  { stationPhase := 0, stationDay := 0, faultPlace := 0, tariffView := Vector.replicate 3 0,
    lastWatch := Vector.replicate 2 0, rangeRule := Vector.replicate 16 (Vector.replicate 3 0),
    blockMark := Vector.replicate 16 0, tapqStatus := Vector.replicate 12 0 }

/-! ## The whole device -/

/-- The bytes that the station-bus memory has taken from the device's write beats, as cells with addresses strictly
rising; an address not listed reads as no value (log entry 6). -/
abbrev Memory := List Host.Cell

/-- The state of the AT416. `slave` is the word the bus slave last drove for a read with an effect (R71); `hostMem`,
`freeIndex` and `pending` are the model's own (log entries 6 and 7; the queue of waiting commands). -/
structure State where
  engine : Engine
  clock : Clock
  attn : Attention
  lines : Vector Line 16
  lineEvents : BitVec 16
  taps : Vector (Option TapContext) 12
  slots : Vector Slot 256
  recency : List SlotNo
  slotWait : List Waiter
  counts : CacheCounts
  pool : CellPool
  port : Port
  tariff : Tariff
  ranges : Vector RangeRule 16
  lastWatch : LastWatch
  change : ChangeUnit
  urgent : Urgent
  marks : Vector (Option Ident) 16
  peek : PeekWindow
  copies : RegCopies
  slave : Word
  hostMem : Memory
  freeIndex : Nat
  pending : List Instr
  deriving DecidableEq, Repr

/-- Why the device stops. -/
inductive Fault where
  /-- Raised by REGISTER_WRITE for an offset outside the register window or not word aligned (section 12.4, R71): no
  register of this device is addressed. Safe: the model stops where the access does not reach the device. -/
  | noSuchRegister (offset : Nat)
  deriving DecidableEq, Repr

/-- Why a command is given no meaning. -/
inductive Refusal where
  /-- Raised by a refused arm of exec for a row that has no meaning yet. Safe: the model stops. No arm raises it now. -/
  | notModelled (mnemonic : String)
  deriving DecidableEq, Repr

/-- The state right after power-on (R187 and each block's own reset rule). -/
def State.reset : State :=
  { engine := Engine.reset,
    clock := { seconds := 0, phase := 0, timeBase := 0 },
    attn := Attention.reset,
    lines := Vector.replicate 16 (Line.reset .quiet),
    lineEvents := 0,
    taps := Vector.replicate 12 none,
    slots := Vector.replicate 256 Slot.unused,
    recency := [],
    slotWait := [],
    counts := { misses := 0, cleanEvictions := 0, dirtyEvictions := 0, rescues := 0, cleanerWrites := 0 },
    pool := { free := [], entries := Vector.replicate 1024 ProductEntry.zero },
    port := { list := [], inFlight := [], stray := [], lastFault := LastFault.none, faults := 0, late := 0 },
    tariff :=
      { bankA := Bank.reset, bankB := Bank.reset, activeB := false, epoch := 0,
        view := { bankB := false, row := false, number := 0 } },
    ranges := Vector.replicate 16 RangeRule.reset,
    lastWatch := LastWatch.reset,
    change := ChangeUnit.reset,
    urgent := Urgent.reset,
    marks := Vector.replicate 16 none,
    peek := PeekWindow.cleared 0,
    copies := RegCopies.reset,
    slave := 0,
    hostMem := [],
    freeIndex := 0,
    pending := [] }

end Sys2Proof.Machine
end

