-- ==== Sys2Proof/Machine/Ops.lean ====
section
/-! DEFINITION. The named operations on the state that the meanings are written over: one update for each field of
State, access to one slot, line or context, and the memory that takes the device's write beats. -/

namespace Sys2Proof.Machine

/-! ## One update for each field -/

/-- Replaces `engine` alone. -/
def State.setEngine (s : State) (x : Engine) : State := { s with engine := x }

/-- Replaces `clock` alone. -/
def State.setClock (s : State) (x : Clock) : State := { s with clock := x }

/-- Replaces `attn` alone. -/
def State.setAttn (s : State) (x : Attention) : State := { s with attn := x }

/-- Replaces `lines` alone. -/
def State.setLines (s : State) (x : Vector Line 16) : State := { s with lines := x }

/-- Replaces `lineEvents` alone. -/
def State.setLineEvents (s : State) (x : BitVec 16) : State := { s with lineEvents := x }

/-- Replaces `taps` alone. -/
def State.setTaps (s : State) (x : Vector (Option TapContext) 12) : State := { s with taps := x }

/-- Replaces `slots` alone. -/
def State.setSlots (s : State) (x : Vector Slot 256) : State := { s with slots := x }

/-- Replaces `recency` alone. -/
def State.setRecency (s : State) (x : List SlotNo) : State := { s with recency := x }

/-- Replaces `slotWait` alone. -/
def State.setSlotWait (s : State) (x : List Waiter) : State := { s with slotWait := x }

/-- Replaces `counts` alone. -/
def State.setCounts (s : State) (x : CacheCounts) : State := { s with counts := x }

/-- Replaces `pool` alone. -/
def State.setPool (s : State) (x : CellPool) : State := { s with pool := x }

/-- Replaces `port` alone. -/
def State.setPort (s : State) (x : Port) : State := { s with port := x }

/-- Replaces `tariff` alone. -/
def State.setTariff (s : State) (x : Tariff) : State := { s with tariff := x }

/-- Replaces `ranges` alone. -/
def State.setRanges (s : State) (x : Vector RangeRule 16) : State := { s with ranges := x }

/-- Replaces `lastWatch` alone. -/
def State.setLastWatch (s : State) (x : LastWatch) : State := { s with lastWatch := x }

/-- Replaces `change` alone. -/
def State.setChange (s : State) (x : ChangeUnit) : State := { s with change := x }

/-- Replaces `urgent` alone. -/
def State.setUrgent (s : State) (x : Urgent) : State := { s with urgent := x }

/-- Replaces `marks` alone. -/
def State.setMarks (s : State) (x : Vector (Option Ident) 16) : State := { s with marks := x }

/-- Replaces `peek` alone. -/
def State.setPeek (s : State) (x : PeekWindow) : State := { s with peek := x }

/-- Replaces `copies` alone. -/
def State.setCopies (s : State) (x : RegCopies) : State := { s with copies := x }

/-- Replaces `slave` alone. -/
def State.setSlave (s : State) (x : Word) : State := { s with slave := x }

/-- Replaces `hostMem` alone. -/
def State.setHostMem (s : State) (x : Memory) : State := { s with hostMem := x }

/-- Replaces `freeIndex` alone. -/
def State.setFreeIndex (s : State) (x : Nat) : State := { s with freeIndex := x }

/-! ## One slot, line, context or unit -/

/-- The account slot `i`. -/
def State.slot (s : State) (i : SlotNo) : Slot := s.slots.get i

/-- Replaces account slot `i` alone. -/
def State.setSlot (s : State) (i : SlotNo) (x : Slot) : State := s.setSlots (s.slots.set i.val x i.isLt)

/-- Changes account slot `i` alone. -/
def State.modSlot (s : State) (i : SlotNo) (f : Slot → Slot) : State := s.setSlot i (f (s.slot i))

/-- The gate line `n`. -/
def State.line (s : State) (n : LineNo) : Line := s.lines.get n

/-- Changes gate line `n` alone. -/
def State.modLine (s : State) (n : LineNo) (f : Line → Line) : State :=
  s.setLines (s.lines.set n.val (f (s.line n)) n.isLt)

/-- The tap context `c`, when it is in use. -/
def State.ctx (s : State) (c : CtxNo) : Option TapContext := s.taps.get c

/-- Writes tap context `c` alone. -/
def State.setCtx (s : State) (c : CtxNo) (x : Option TapContext) : State := s.setTaps (s.taps.set c.val x c.isLt)

/-- Changes the Change Unit alone. -/
def State.modChange (s : State) (f : ChangeUnit → ChangeUnit) : State := s.setChange (f s.change)

/-- Changes the Urgent Command Unit's registers alone. -/
def State.modUrgent (s : State) (f : Urgent → Urgent) : State := s.setUrgent (f s.urgent)

/-- Changes the port alone. -/
def State.modPort (s : State) (f : Port → Port) : State := s.setPort (f s.port)

/-- Changes the cache counters alone. -/
def State.modCounts (s : State) (f : CacheCounts → CacheCounts) : State := s.setCounts (f s.counts)

/-- The numbers of the account slots, in increasing order. -/
def allSlots : List SlotNo := List.finRange 256

/-- The numbers of the gate lines, in increasing order. -/
def allLines : List LineNo := List.finRange 16

/-- The numbers of the tap contexts, in increasing order. -/
def allCtxs : List CtxNo := List.finRange 12

/-! ## Engine states -/

/-- The engine states in which the register window takes configuration writes, and in which the Attention Controller
takes raises: STOPPED, RUNNING and DRAINING (R196, R185). -/
def State.isOpen (s : State) : Bool :=
  match s.engine.state with
  | .held | .initializing => false
  | .stopped | .running | .draining => true

/-- The engine is RUNNING. -/
def State.running (s : State) : Bool := s.engine.state == .running

/-! ## The memory that takes the device's write beats (log entry 6) -/

/-- The byte that memory has taken at an address from the device, when it has taken one. -/
def Memory.read (m : Memory) (a : Nat) : Option Byte :=
  match m with
  | [] => none
  | (b, x) :: rest => if a = b then some x else Memory.read rest a

/-- Memory takes one byte. The list stays in its canonical form: addresses strictly rising. -/
def Memory.write (m : Memory) (a : Nat) (v : Byte) : Memory :=
  match m with
  | [] => [(a, v)]
  | (b, x) :: rest =>
    if a < b then (a, v) :: (b, x) :: rest
    else if a = b then (a, v) :: rest
    else (b, x) :: Memory.write rest a v

/-- Every cell of the list lies above an address. -/
def Memory.above (m : Memory) (a : Nat) : Bool :=
  match m with
  | [] => true
  | (b, _) :: rest => a < b && Memory.above rest a

/-- The canonical form: addresses strictly rising. (An unlisted address reads as no value, so no entry can equal what
an unlisted address reads as.) -/
def Memory.wf (m : Memory) : Bool :=
  match m with
  | [] => true
  | (a, _) :: rest => Memory.above rest a && Memory.wf rest

/-- Memory takes the lanes of one write beat: lane `k` is the byte at the beat's address plus `k` (R62, R194). -/
def Memory.takeBeat (m : Memory) (b : Beat) : Memory :=
  [0, 1, 2, 3].foldl
    (fun m k => if b.lanes.getLsbD k then Memory.write m (b.addr.toNat + k) (b.data.extractLsb' (8 * k) 8) else m) m

end Sys2Proof.Machine
end

