-- ==== Sys2Proof/Machine/Cells.lean ====
section
/-! DEFINITION. The Product Cell Pool (chapter 3): the product list that a chain of cells holds, and the taking and
returning of cells. -/

namespace Sys2Proof.Machine

/-- The entry a cell holds. -/
def CellPool.entry (p : CellPool) (c : CellNo) : ProductEntry := p.entries.get c

/-- A cell written in full (R47, R52). -/
def CellPool.write (p : CellPool) (c : CellNo) (x : ProductEntry) : CellPool :=
  { p with entries := p.entries.set c.val x c.isLt }

/-- R52: the product list of slot `i`, in chain order. -/
def State.products (s : State) (i : SlotNo) : List ProductEntry := (s.slot i).cells.map s.pool.entry

/-- R50: entries written into cells, the first entry into the first cell. -/
def CellPool.writeAll (p : CellPool) : List CellNo → List ProductEntry → CellPool
  | c :: cs, x :: xs => (p.write c x).writeAll cs xs
  | _, _ => p

/-- R50: one cell for each entry is taken from the head of the free-cell list and chained after the slot's cells. -/
def takeCells (i : SlotNo) (ps : List ProductEntry) (s : State) : State :=
  let taken := s.pool.free.take ps.length
  let r := s.setPool (({ s.pool with free := s.pool.free.drop ps.length } : CellPool).writeAll taken ps)
  r.modSlot i fun x => { x with cells := x.cells ++ taken }

/-- R51: cells returned one after another to the head of the free-cell list. -/
def CellPool.giveBack (p : CellPool) (cs : List CellNo) : CellPool := { p with free := cs.reverse ++ p.free }

/-- R51: all the cells of slot `i` are returned, in list order. -/
def returnCells (i : SlotNo) (s : State) : State :=
  (s.setPool (s.pool.giveBack (s.slot i).cells)).modSlot i fun x => { x with cells := [] }

/-- R51: one cell of slot `i` is returned; the others close up. -/
def returnCell (i : SlotNo) (c : CellNo) (s : State) : State :=
  (s.setPool (s.pool.giveBack [c])).modSlot i fun x => { x with cells := x.cells.erase c }

/-- R49: initialisation places all 1024 cells on the free-cell list in increasing order. -/
def rebuildPool (s : State) : State := s.setPool { s.pool with free := List.finRange 1024 }

/-- R49: a reset empties the free-cell list and discards the entries. -/
def resetPool (s : State) : State :=
  s.setPool { free := [], entries := Vector.replicate 1024 ProductEntry.zero }

end Sys2Proof.Machine
end

