-- ==== Sys2Proof/Machine/Flags.lean ====
section
/-! DEFINITION. The Attention Controller's flags (chapter 10): raising, ranking, clearing, the interrupt output, and the
coalescing of CHG_DONE; and the multi-flag LINE_EVENTS register (R94). -/

namespace Sys2Proof.Machine

/-- Table 10.2: the code of an attention source. -/
def Source.code : Source → Nat
  | .chgDone => 1
  | .chgStopped => 2
  | .memFault => 3
  | .damaged => 4
  | .cellShort => 5
  | .slotShort => 6
  | .watch => 7
  | .lineEvent => 8
  | .urgentDone => 9
  | .deadlinePass => 10
  | .dayRoll => 11
  | .drainDone => 12

/-- The twelve sources in code order. -/
def allSources : List Source :=
  [.chgDone, .chgStopped, .memFault, .damaged, .cellShort, .slotShort, .watch, .lineEvent, .urgentDone, .deadlinePass,
    .dayRoll, .drainDone]

/-- The bit of a source in ATTN_PENDING: bit c − 1 for code c (Table 12.7). -/
def Source.bit (x : Source) : BitVec 12 := BitVec.twoPow 12 (x.code - 1)

/-- A source's pending flag (R179). -/
def Attention.isPending (a : Attention) (x : Source) : Bool := a.pending.getLsbD (x.code - 1)

/-- A source's level: bits 2c − 2 and 2c − 1 of ATTN_LEVEL (R180, Table 12.7). -/
def Attention.level (a : Attention) (x : Source) : Nat := (a.levels.extractLsb' (2 * x.code - 2) 2).toNat

/-- R180: the interrupt output is asserted while any source whose pending flag is set has a level of 1 or more. -/
def Attention.irq (a : Attention) : Bool := allSources.any (fun x => a.isPending x && 1 ≤ a.level x)

/-- R179, R185: a raise sets the source's pending flag, whatever its level; in HELD and INITIALIZING the controller
takes no raise. -/
def raise (x : Source) (s : State) : State :=
  if s.isOpen then s.setAttn { s.attn with pending := s.attn.pending ||| x.bit } else s

/-- R181: whether source `x` outranks the best found so far (sources are tried in code order, so an equal level does
not outrank). -/
def Attention.outranks (a : Attention) (best : Option Source) (x : Source) : Bool :=
  a.isPending x && 1 ≤ a.level x &&
    match best with
    | none => true
    | some b => a.level b < a.level x

/-- R181: the source that a read of ATTN_CAUSE returns: pending, level 1 or more, the highest level, and among equals
the lowest code. -/
def Attention.cause (a : Attention) : Option Source :=
  allSources.foldl (fun best x => if a.outranks best x then some x else best) none

/-- R181: a read of ATTN_CAUSE returns the source's code, or 0, and clears that source's flag. -/
def readCause (s : State) : State :=
  match s.attn.cause with
  | none => s.setSlave 0
  | some x =>
    (s.setAttn { s.attn with pending := s.attn.pending &&& ~~~x.bit }).setSlave (BitVec.ofNat 32 x.code)

/-- R182: a host write to ATTN_PENDING clears each flag whose bit is written as 1. -/
def clearPending (v : Word) (s : State) : State :=
  if s.isOpen then s.setAttn { s.attn with pending := s.attn.pending &&& ~~~v.truncate 12 } else s

/-- R180: a host write to ATTN_LEVEL sets all twelve levels. -/
def writeLevels (v : Word) (s : State) : State :=
  if s.isOpen then s.setAttn { s.attn with levels := v.truncate 24 } else s

/-- R183, Table 10.3: a qualifying completion: CHG_DONE set at once, or held back in HOLDING. -/
def signalChgDone (s : State) : State :=
  if s.attn.holding then
    if s.attn.count + 1 < s.attn.threshold then s.setAttn { s.attn with count := s.attn.count + 1 }
    else
      let r := raise .chgDone s
      r.setAttn { r.attn with count := 0, windowStart := s.clock.timeBase }
  else
    let r := raise .chgDone s
    if s.attn.window = 0 then r
    else r.setAttn { r.attn with holding := true, count := 0, windowStart := s.clock.timeBase }

/-- The milliseconds of the time base since a mark, across a wrap (R178). -/
def elapsedMs (s : State) (mark : Word) : Nat := (s.clock.timeBase - mark).toNat

/-- The coalescing window is running and has run out (R183, R178). -/
def windowDue (s : State) : Bool := s.attn.holding && s.attn.window ≤ elapsedMs s s.attn.windowStart

/-- R183, Table 10.3: the window's expiry releases the count held and restarts the window, or returns the controller to
QUIET when the count is 0. -/
def expireWindow (s : State) : State :=
  if s.attn.count = 0 then s.setAttn { s.attn with holding := false }
  else
    let r := raise .chgDone s
    r.setAttn { r.attn with count := 0, windowStart := s.clock.timeBase }

/-- R184: a host write to ATTN_COALESCE: ignored whole out of range; otherwise it ends any HOLDING, releasing a held
count as a CHG_DONE flag, and sets the new threshold and window. -/
def writeCoalesce (threshold window : Nat) (s : State) : State :=
  if !s.isOpen || threshold = 0 || 8 < threshold || 1023 < window then s
  else
    let r := if s.attn.holding && 0 < s.attn.count then raise .chgDone s else s
    r.setAttn { r.attn with threshold := threshold, window := window, holding := false, count := 0 }

/-- R94: an overrun sets the line's flag in LINE_EVENTS and raises LINE_EVENT. -/
def flagLineEvent (n : LineNo) (s : State) : State :=
  raise .lineEvent (s.setLineEvents (s.lineEvents ||| BitVec.twoPow 16 n.val))

/-- R94: a host write to LINE_EVENTS clears the flags written as 1. -/
def clearLineEvents (v : Word) (s : State) : State :=
  if s.isOpen then s.setLineEvents (s.lineEvents &&& ~~~v.truncate 16) else s

end Sys2Proof.Machine
end

