-- ==== Sys2Proof/Machine/Operands.lean ====
section
/-! DEFINITION. The formats of chapter 12 that carry a command's operands: home record images and their check value
(R13, R15, R193), change blocks (R147, R194), TAP frames and verdict records (R195), and the account key (R10). -/

namespace Sys2Proof.Machine

/-! ## The account key -/

/-- R10: the account key of an identifier under a Key Shape: the upper `s` bits are the low `s` bits of the issuer
code, the lower 16 − s bits the low 16 − s bits of the serial. -/
def keyOf (shape : Fin 9) (x : Ident) : Key :=
  let issuer := (x.extractLsb' 40 16).toNat
  let serial := (x.extractLsb' 0 40).toNat
  BitVec.ofNat 16 (issuer % 2 ^ shape.val * 2 ^ (16 - shape.val) + serial % 2 ^ (16 - shape.val))

/-! ## Home record images -/

/-- R15: `n` shifts of the remainder, each combined with 1021h when the bit shifted out is 1; then `k`. -/
def crcShifts (k : Half → Half) : Nat → Half → Half
  | 0, r => k r
  | n + 1, r => if r.msb then crcShifts k n ((r <<< 1) ^^^ 0x1021#16) else crcShifts k n (r <<< 1)

/-- R15: each byte in turn is combined into the upper eight bits of the remainder, which is then shifted eight times. -/
def crcFrom : List Byte → Half → Half
  | [], r => r
  | b :: l, r => crcShifts (crcFrom l) 8 (r ^^^ (b.zeroExtend 16 <<< 8))

/-- R15: the CRC of a run of bytes: polynomial 1021h, initial remainder FFFFh, no inversion. -/
def crc (l : List Byte) : Half := crcFrom l 0xFFFF#16

/-- R15: the check value of a 184-byte image, its two check value bytes taken as 00h. -/
def imageCheck (image : List Byte) : Half := crc (image.take 28 ++ [0, 0] ++ image.drop 30)

/-- Table 12.1: the code of a record state. -/
def RecState.code : RecState → Byte
  | .empty => 0
  | .active => 1
  | .blocked => 2

/-- Table 12.1: the code of a trip state. -/
def Trip.code : Trip → Byte
  | .out => 0
  | .within => 1

/-- Table 12.2: the code of a product kind. -/
def ProductKind.code : ProductKind → Byte
  | .periodPass => 1
  | .rideBundle => 2

/-- Table 12.2: the kind that a byte names, when it names one. -/
def kindOf (b : Byte) : Option ProductKind :=
  if b = 1 then some .periodPass else if b = 2 then some .rideBundle else none

/-- Table 12.2: the twelve bytes of a product entry. -/
def encodeProduct (p : ProductEntry) : List Byte :=
  [p.kind.code, p.zoneMask] ++ halfBytes p.tag ++ halfBytes p.firstDay ++ halfBytes p.lastDay ++ halfBytes p.rides ++
    halfBytes p.uses

/-- Table 12.2: the product entry in the twelve bytes at an offset, when its kind byte names a kind. -/
def decodeProduct (l : List Byte) (off : Nat) : Option ProductEntry :=
  (kindOf (byteAt l off)).map fun k =>
    { kind := k, zoneMask := byteAt l (off + 1), tag := halfAt l (off + 2), firstDay := halfAt l (off + 4),
      lastDay := halfAt l (off + 6), rides := halfAt l (off + 8), uses := halfAt l (off + 10) }

/-- The entries in `n` areas of twelve bytes from an offset on, when every kind byte names a kind. -/
def decodeProducts (l : List Byte) (off : Nat) : Nat → Option (List ProductEntry)
  | 0 => some []
  | n + 1 =>
    match decodeProduct l off, decodeProducts l (off + 12) n with
    | some p, some ps => some (p :: ps)
    | _, _ => none

/-- Table 12.1, R17: the 184 bytes of a record's image with a check value: the core, the entries in list order, zero
beyond them. -/
def imageBytes (r : Record) (ps : List ProductEntry) (check : Half) : List Byte :=
  let body :=
    identBytes r.ident ++ [r.state.code] ++ wordBytes (BitVec.ofInt 32 r.balance) ++ wordBytes r.entryStamp ++
      wordBytes r.refillMark ++ wordBytes r.lastTapStamp ++ halfBytes r.tapCount ++ halfBytes r.generation ++
      halfBytes check ++
      [BitVec.ofNat 8 r.fareClass.val, BitVec.ofNat 8 ps.length, r.trip.code, BitVec.ofNat 8 r.entryGroup.val,
        r.entryEpoch, BitVec.ofNat 8 r.tokens.val, BitVec.ofNat 8 r.lastTapLine.val, r.deadlinePasses, r.blockedTaps,
        r.watchHits] ++
      ps.flatMap encodeProduct
  body ++ List.replicate (184 - body.length) 0

/-- R15, R17: the image that a write-back carries, with the check value computed over it. -/
def encodeImage (r : Record) (ps : List ProductEntry) : List Byte :=
  imageBytes r ps (imageCheck (imageBytes r ps 0))

/-- What the cache makes of a fetched image (R13): the EMPTY record with generation 0, a valid record with its product
entries, or DAMAGED. -/
inductive Fetched where
  | damaged
  | valid (r : Record) (ps : List ProductEntry)
  deriving DecidableEq, Repr

/-- R1: the balance range. -/
def balanceInRange (b : Int) : Bool := -65535 ≤ b && b ≤ 16777215

/-- R13: the checks on an image whose state field does not hold the code for EMPTY, other than those of its product
entries. -/
def coreValid (l : List Byte) : Bool :=
  halfAt l 28 == imageCheck l && (byteAt l 7 == 1 || byteAt l 7 == 2) && (byteAt l 30).toNat < 8 &&
    (byteAt l 31).toNat ≤ 12 && balanceInRange (wordAt l 8).toInt && (byteAt l 32 == 0 || byteAt l 32 == 1) &&
    (byteAt l 33).toNat < 8 && (byteAt l 36).toNat < 16 && (byteAt l 35).toNat < 16

/-- R13: a valid image taken field by field (the check value is not kept). -/
def decodeCore (l : List Byte) : Record :=
  { ident := identAt l 0, state := if byteAt l 7 = 2 then .blocked else .active,
    fareClass := Fin.ofNat 8 (byteAt l 30).toNat, balance := (wordAt l 8).toInt, generation := halfAt l 26,
    trip := if byteAt l 32 = 1 then .within else .out, entryGroup := Fin.ofNat 8 (byteAt l 33).toNat,
    entryEpoch := byteAt l 34, entryStamp := wordAt l 12, tokens := Fin.ofNat 16 (byteAt l 35).toNat,
    refillMark := wordAt l 16, lastTapStamp := wordAt l 20, lastTapLine := Fin.ofNat 16 (byteAt l 36).toNat,
    tapCount := halfAt l 24, deadlinePasses := byteAt l 37, blockedTaps := byteAt l 38, watchHits := byteAt l 39 }

/-- R13: a fetched image tested and taken. -/
def decodeImage (l : List Byte) : Fetched :=
  if byteAt l 7 = 0 then .valid (Record.empty 0) []
  else if coreValid l then
    match decodeProducts l 40 (byteAt l 31).toNat with
    | some ps => .valid (decodeCore l) ps
    | none => .damaged
  else .damaged

/-! ## Change blocks -/

/-- Table 12.4: the change commands. -/
inductive ChangeCommand where
  | nop | enroll | amend | adjust | addProduct | removeProduct | block | unblock | retire | flush | flushAll
  | setRange | loadClass | loadFares | copyActive | switchTariff
  deriving DecidableEq, Repr

/-- Table 12.4: the command that a command byte names, when it names one. -/
def commandOf (b : Byte) : Option ChangeCommand :=
  match b.toNat with
  | 0x00 => some .nop
  | 0x01 => some .enroll
  | 0x02 => some .amend
  | 0x03 => some .adjust
  | 0x04 => some .addProduct
  | 0x05 => some .removeProduct
  | 0x06 => some .block
  | 0x07 => some .unblock
  | 0x08 => some .retire
  | 0x09 => some .flush
  | 0x0A => some .flushAll
  | 0x10 => some .setRange
  | 0x11 => some .loadClass
  | 0x12 => some .loadFares
  | 0x13 => some .copyActive
  | 0x14 => some .switchTariff
  | _ => none

/-- R147, Table 12.4: whether the payload length is the one the command requires. -/
def lengthFits (c : ChangeCommand) (b : Block) : Bool :=
  let n := b.length.toNat
  match c with
  | .nop => true
  | .enroll => 8 ≤ n && n == 8 + 12 * (byteAt b.payload 1).toNat
  | .amend => n == 2
  | .adjust => n == 4
  | .addProduct => n == 12
  | .removeProduct => n == 2
  | .block | .unblock | .retire | .flush | .flushAll | .copyActive | .switchTariff => n == 0
  | .setRange => n == 12
  | .loadClass => n == 16
  | .loadFares => n == 128

/-- An address with its three lowest bits taken as 0 (R142, R143, R194). -/
def blockAligned (a : Word) : Word := a &&& ~~~7#32

/-- R61: the payload length that the third header word carries in its byte 11. -/
def payloadLength (words : List Word) : Nat := ((words.getD 2 0).extractLsb' 24 8).toNat

/-- R61: the words that a BLOCK READ reads in all: five of the header, then the whole words that cover the payload; for
a payload length above 184 the header alone. -/
def blockReadWords (words : List Word) : Nat :=
  if words.length < 5 then 5
  else
    let n := payloadLength words
    if 184 < n then 5 else 5 + (n + 3) / 4

/-- R194, Table 12.3: the block that the words of a BLOCK READ hold. -/
def parseBlock (words : List Word) : Block :=
  let l := wordsBytes words
  { link := blockAligned (wordAt l 0), command := byteAt l 10, length := byteAt l 11, ident := identAt l 12,
    flagI := (byteAt l 19)[0], flagS := (byteAt l 19)[1], flagE := (byteAt l 19)[2],
    payload := (l.drop 20).take (byteAt l 11).toNat }

/-- Table 8.5: the status codes. -/
inductive Status where
  | ok | notEnrolled | keyClash | exists_ | idMismatch | noProduct | productFull | balanceLimit | cellShort | memFault
  | damaged | badCommand | badArgument | aborted
  deriving DecidableEq, Repr

/-- Table 12.3: the code of a status, 0 to 13 in the order of Table 8.5. -/
def Status.code : Status → Nat
  | .ok => 0
  | .notEnrolled => 1
  | .keyClash => 2
  | .exists_ => 3
  | .idMismatch => 4
  | .noProduct => 5
  | .productFull => 6
  | .balanceLimit => 7
  | .cellShort => 8
  | .memFault => 9
  | .damaged => 10
  | .badCommand => 11
  | .badArgument => 12
  | .aborted => 13

/-- R159, R194: bytes 8 and 9 of a block as the STATUS WRITE writes them: the code, then complete set and ok set
exactly when the code is OK. -/
def statusHalf (c : Status) : Half :=
  BitVec.ofNat 8 (if c = .ok then 3 else 1) ++ BitVec.ofNat 8 c.code

/-- R147: what the checks before a command is applied make of a block: the command to apply, or the status with which
the block is completed. -/
def checkBlock (b : Block) : Except Status ChangeCommand :=
  if 184 < b.length.toNat then .error .badArgument
  else
    match commandOf b.command with
    | none => .error .badCommand
    | some c => if lengthFits c b then .ok c else .error .badArgument

/-! ## Frames and verdict records -/

/-- Table 12.6: the code of an outcome. -/
def VOutcome.code : VOutcome → Nat
  | .accept => 1
  | .refuse => 2
  | .retry => 3
  | .busy => 4
  | .deadlineAccept => 5
  | .deadlineRefuse => 6
  | .fault => 7

/-- Table 12.6: the code of a reason. -/
def Reason.code : Reason → Nat
  | .none => 0
  | .notEnrolled => 1
  | .blocked => 2
  | .rangeDeny => 3
  | .lowBalance => 4
  | .passback => 5
  | .velocity => 6
  | .direction => 7
  | .cellShort => 8
  | .slotShort => 9
  | .memFault => 10
  | .damaged => 11
  | .noContext => 12
  | .engineNotRunning => 13
  | .frameError => 14

/-- The two bytes of a frame field, most-significant first. -/
def halfBytesBE (h : Half) : List Byte := [h.extractLsb' 8 8, h.extractLsb' 0 8]

/-- The four bytes of a frame field, most-significant first. -/
def wordBytesBE (w : Word) : List Byte :=
  [w.extractLsb' 24 8, w.extractLsb' 16 8, w.extractLsb' 8 8, w.extractLsb' 0 8]

/-- Table 12.6: the fifteen bytes of a verdict record, the record check last. -/
def encodeVerdict (v : Verdict) : List Byte :=
  let body :=
    [v.sequence, BitVec.ofNat 8 v.outcome.code, BitVec.ofNat 8 v.reason.code] ++ halfBytesBE v.fare ++
      wordBytesBE (BitVec.ofInt 32 v.balance) ++ halfBytesBE v.tag ++ halfBytesBE v.rides ++ [v.epoch]
  body ++ [xorBytes body]

/-- R85: the verdict record of a reply that carries no verdict: all zero. -/
def noVerdict : List Byte := List.replicate 15 0

/-- R76: the frame kinds. -/
inductive FrameKind where
  | tap | poll | again
  deriving DecidableEq, Repr

/-- R195, section 12.3: the frame kind that an opcode names, when it names one: TAP, POLL or REPEAT. -/
def frameKindOf (opcode : Byte) : Option FrameKind :=
  if opcode = 0x3C then some .tap
  else if opcode = 0x5A then some .poll
  else if opcode = 0x69 then some .again
  else none

/-- R76: the bytes that a frame of a kind requires. -/
def FrameKind.length : FrameKind → Nat
  | .tap => 11
  | .poll => 17
  | .again => 17

/-- R76, Table 12.5: the ten bytes of a TAP frame before its check byte. -/
def tapBytes (sequence direction : Byte) (issuer : BitVec 16) (serial : BitVec 40) : List Byte :=
  [0x3C#8, sequence, direction, issuer.extractLsb' 8 8, issuer.extractLsb' 0 8, serial.extractLsb' 32 8,
    serial.extractLsb' 24 8, serial.extractLsb' 16 8, serial.extractLsb' 8 8, serial.extractLsb' 0 8]

/-- Table 12.5: the TAP of line `n` whose complete bytes, its opcode included, are the given ones; bytes beyond the
eleventh are ignored (R76). -/
def tapOfBytes (n : LineNo) (l : List Byte) : Instr :=
  .tap n (byteAt l 1) (byteAt l 2) (byteAt l 3 ++ byteAt l 4)
    (byteAt l 5 ++ byteAt l 6 ++ byteAt l 7 ++ byteAt l 8 ++ byteAt l 9) (byteAt l 10)

/-- R76, R77, R195: the command that a whole frame on line `n` stands for, by the complete bytes sampled on data in from
the fall of select to its rise. -/
def frameCommand (n : LineNo) (l : List Byte) : Instr :=
  match l with
  | [] => .frameWithoutOpcode n
  | opcode :: _ =>
    match frameKindOf opcode with
    | none => .unknownOpcode n opcode
    | some kind =>
      if l.length < kind.length then .frameCutShort n
      else
        match kind with
        | .tap => tapOfBytes n l
        | .poll => .poll n
        | .again => .repeatFrame n

/-- R85, R86, R195: the event at a frame's completed opcode, when the frame kind has one: the fixing of a reply. -/
def opcodeCommand (n : LineNo) (opcode : Byte) : Option Instr :=
  match frameKindOf opcode with
  | some .poll => some (.pollReplyFixed n)
  | some .again => some (.repeatReplyFixed n)
  | some .tap => none
  | none => none

/-! ## The wires of a gate line -/

/-- R76: the levels that the gate drives on a line's clock and data in. -/
structure LineSample where
  clock : Bool
  dataIn : Bool
  deriving DecidableEq, Repr

/-- R76: the bits sampled on data in, one at each rising edge of the clock; `clock` is its level before the first of the
successive levels of the wires. -/
def sampledBits (clock : Bool) : List LineSample → List Bool
  | [] => []
  | x :: wave => if clock = false ∧ x.clock = true then x.dataIn :: sampledBits x.clock wave else sampledBits x.clock wave

/-- R76: the falling edges of the clock, at each of which the next bit is placed. -/
def fallingEdges (clock : Bool) : List LineSample → Nat
  | [] => 0
  | x :: wave => (if clock = true ∧ x.clock = false then 1 else 0) + fallingEdges x.clock wave

/-- R76: a bit that follows those of a byte in the making: the most significant bit comes first. -/
def shiftIn (b : Byte) (bit : Bool) : Byte := b <<< 1 ||| (BitVec.ofBool bit).zeroExtend 8

/-- R76, R77: the complete bytes of the bits sampled since the fall of select: each eighth bit completes one, and a partial
byte counts for nothing. -/
def bitsBytes (bits : List Bool) : List Byte :=
  (List.range (bits.length / 8)).map fun k => ((bits.drop (8 * k)).take 8).foldl shiftIn 0

/-- R76: the bit of a byte on a line's wire, `k` bits after its first. -/
def wireBit (b : Byte) (k : Nat) : Bool := b.getLsbD (7 - k)

/-- R76, R77, R78: the commands that a whole frame on line `n` stands for, from the fall of select to its rise, by the
successive levels of the gate's wires between them; the clock rests low. -/
def frameEvents (n : LineNo) (wave : List LineSample) : List Instr :=
  let bytes := bitsBytes (sampledBits false wave)
  .frameStart n :: ((bytes.head?.bind (opcodeCommand n)).toList ++ [frameCommand n bytes])

/-- Table 12.5: the direction that a direction byte names, when it names one. -/
def directionOf (b : Byte) : Option Direction :=
  if b = 1 then some .entry else if b = 2 then some .exit else none

/-- R72, Table 12.7: the configuration that a word written to LINE_CONFIG names: none when its deadline is 0 or its
mode field holds no code of ENTRY, EXIT or BOTH. -/
def configOf (v : Word) : Option LineConfig :=
  let deadline : Byte := v.extractLsb' 16 8
  let mode : Option Mode :=
    match (v.extractLsb' 8 2).toNat with
    | 1 => some .entry
    | 2 => some .exit
    | 3 => some .both
    | _ => none
  if deadline = 0 then none
  else
    mode.map fun m =>
      { enabled := v[0], group := Fin.ofNat 8 (v.extractLsb' 4 3).toNat, mode := m, deadline := deadline,
        accept := v[24] }

end Sys2Proof.Machine
end

