-- ==== Sys2Proof/Machine/Port.lean ====
section
/-! DEFINITION. The Home Store Port (chapter 4): joining and beginning requests, the beats of an operation, its endings,
faults, late responses and the reset of the port. -/

namespace Sys2Proof.Machine

/-! ## Requests and beats -/

/-- R12: the address of home record `k` under the Home Base in force. -/
def homeAddr (s : State) (k : Key) : Word := s.engine.homeBase + (k.zeroExtend 32 <<< 8)

/-- R59: the address of word `i` of an operation: its address with the two lowest bits taken as 0, rising and wrapping. -/
def wordAddr (a : Word) (i : Nat) : Word := (a &&& ~~~3#32) + BitVec.ofNat 32 (4 * i)

/-- Table 4.1: the kind of a request. -/
def Request.kind : Request → OpKind
  | .fetch _ _ _ => .fetch
  | .writeBack _ _ _ _ => .writeBack
  | .blockRead _ _ => .blockRead
  | .statusWrite _ _ _ => .statusWrite

/-- R67: the place of a request: the account key, or the block address. -/
def Request.place : Request → Word
  | .fetch _ k _ => k.zeroExtend 32
  | .writeBack _ k _ _ => k.zeroExtend 32
  | .blockRead a _ => a
  | .statusWrite a _ _ => a

/-- Whether a request is carried out by write beats (R62). -/
def Request.writes : Request → Bool
  | .fetch _ _ _ => false
  | .writeBack _ _ _ _ => true
  | .blockRead _ _ => false
  | .statusWrite _ _ _ => true

/-- A request writes back the given slot (a slot has at most one, R59). -/
def Request.writesSlot (i : SlotNo) : Request → Bool
  | .writeBack j _ _ _ => i == j
  | _ => false

/-- R59: a request joins the tail of the request list. -/
def ask (q : Request) (s : State) : State := s.modPort fun p => { p with list := p.list ++ [q] }

/-- R60: the request at the head of the list begins, when fewer than four operations are in flight. -/
def beginOne (s : State) : State :=
  match s.port.list with
  | [] => s
  | q :: rest =>
    if s.port.inFlight.length < 4 then
      s.modPort fun p =>
        { p with
          list := rest,
          inFlight := p.inFlight ++ [{ request := q, started := s.clock.timeBase, words := [], acked := 0 }] }
    else s

/-- R60: requests begin one after another until the list is empty or four operations are in flight. -/
def beginRequests (s : State) : State := beginOne (beginOne (beginOne (beginOne s)))

/-- R61, R62: the outstanding beat of an operation in flight. -/
def Op.beat (o : Op) : Beat :=
  match o.request with
  | .fetch _ _ a => { addr := wordAddr a o.words.length, write := false, data := 0, lanes := 0 }
  | .blockRead a _ => { addr := wordAddr a o.words.length, write := false, data := 0, lanes := 0 }
  | .writeBack _ _ a image => { addr := wordAddr a o.acked, write := true, data := image.getD o.acked 0, lanes := 15 }
  | .statusWrite a result status =>
    if o.acked = 0 then { addr := wordAddr a 1, write := true, data := result, lanes := 15 }
    else { addr := wordAddr a 2, write := true, data := status.zeroExtend 32, lanes := 3 }

/-- Section 4.3, R61: the data that the device's master drives with a write beat, and one parity bit for each byte lane; a
read beat drives none. The lanes of a status word that are not enabled (R194) carry 0 with its parity (log entry 29). -/
def Beat.dataDriven (b : Beat) : Option (Word × BitVec 4) := if b.write then some (b.data, oddParity b.data) else none

/-- R61, R62: whether an operation whose last beat was good has no beat left. -/
def Op.finished (o : Op) : Bool :=
  match o.request with
  | .fetch _ _ _ => 46 ≤ o.words.length
  | .blockRead _ _ => blockReadWords o.words ≤ o.words.length
  | .writeBack _ _ _ _ => 46 ≤ o.acked
  | .statusWrite _ _ _ => 2 ≤ o.acked

/-- R61 to R63: what a response to the outstanding beat makes of an operation: the operation as it then stands, and its
outcome when the response ends it. A response of the wrong kind makes nothing (log entry 21). -/
def Op.respond (o : Op) : BusResponse → Option (Op × Option OpOutcome)
  | .error => some (o, some .busError)
  | .data w p =>
    if o.request.writes then none
    else if p = oddParity w then
      let o' := { o with words := o.words ++ [w] }
      some (o', if o'.finished then some .ok else none)
    else some (o, some .parity)
  | .ack =>
    if o.request.writes then
      let o' := { o with acked := o.acked + 1 }
      some (o', if o'.finished then some .ok else none)
    else none

/-- R64: the response timer of an operation has run out. -/
def Op.timedOut (s : State) (o : Op) : Bool := 2 ≤ elapsedMs s o.started

/-- How a given end ends an operation in flight: the operation as it then stands, and its outcome. -/
def Op.endBy (s : State) (o : Op) : BusEnd → Option (Op × OpOutcome)
  | .timeout => if o.timedOut s then some (o, .timeout) else none
  | .response r =>
    match o.respond r with
    | some (o', some out) => some (o', out)
    | _ => none

/-- The operation at a place among those in flight. -/
def State.op (s : State) (i : Nat) : Option Op := s.port.inFlight[i]?

/-! ## Memory, faults and endings -/

/-- Memory takes a write beat (R62); a read beat writes nothing. -/
def takeBeat (b : Beat) (s : State) : State := if b.write then s.setHostMem (s.hostMem.takeBeat b) else s

/-- R63, R69: the word of a write beat that was cut off may or may not have been taken (log entry 7). -/
def cutOffBeat (b : Beat) (s : State) : State :=
  if b.write then
    let r := s.setFreeIndex (s.freeIndex + 1)
    if Config.busTook s.freeIndex then takeBeat b r else r
  else s

/-- R64, R69: a beat is left outstanding on the bus. -/
def leaveBeat (b : Beat) (s : State) : State := s.modPort fun p => { p with stray := p.stray ++ [b] }

/-- R67: a fault is recorded, counted and raised. -/
def recordFault (q : Request) (out : OpOutcome) (s : State) : State :=
  raise .memFault
    (s.modPort fun p =>
      { p with
        lastFault := { kind := some q.kind, place := q.place, outcome := out },
        faults := satInc16 p.faults })

/-- R63, R64, R66, R67: the operation at place `i`, which stands as `o` at its end, leaves the in-flight set with an
outcome. A timeout leaves its outstanding beat on the bus. -/
def endOp (i : Nat) (o : Op) (out : OpOutcome) (s : State) : State :=
  let r := s.modPort fun p => { p with inFlight := p.inFlight.eraseIdx i }
  match out with
  | .ok => r
  | .timeout => recordFault o.request out (leaveBeat o.beat (cutOffBeat o.beat r))
  | .busError | .parity => recordFault o.request out (cutOffBeat o.beat r)

/-- R62: the acknowledgement of a write beat, taken by memory before the operation moves on. -/
def ackBeat (o : Op) (r : BusResponse) (s : State) : State :=
  match r with
  | .ack => takeBeat o.beat s
  | _ => s

/-- The acknowledgement, when the end is one. -/
def ackEnd (o : Op) (e : BusEnd) (s : State) : State :=
  match e with
  | .response r => ackBeat o r s
  | .timeout => s

/-- R61, R62: a good response to a beat that is not the operation's last; the next beat is issued. -/
def continueOp (i : Nat) (o o' : Op) (r : BusResponse) (s : State) : State :=
  ackBeat o r (s.modPort fun p => { p with inFlight := p.inFlight.set i o' })

/-- BEAT_RESPONSE (R61, R62): a good response that does not end its operation. -/
def beatResponse (i : Nat) (r : BusResponse) (s : State) : State :=
  match s.op i with
  | none => s
  | some o =>
    match o.respond r with
    | some (o', none) => continueOp i o o' r s
    | _ => s

/-- Whether a response can answer a beat (log entry 21). -/
def Beat.answeredBy (b : Beat) : BusResponse → Bool
  | .data _ _ => !b.write
  | .ack => b.write
  | .error => true

/-- LATE_RESPONSE (R65): the response is discarded and counted; a late acknowledgement says that memory took the word (log
entry 8). The spec does not order that taking against a newer word of the same address; the model lets it come last (log
entry 26). -/
def lateResponse (k : Nat) (r : BusResponse) (s : State) : State :=
  match s.port.stray[k]? with
  | none => s
  | some b =>
    if b.answeredBy r then
      let t := s.modPort fun p => { p with stray := p.stray.eraseIdx k, late := satInc16 p.late }
      if r = .ack then takeBeat b t else t
    else s

/-- R69: an operation in flight is abandoned by a reset; its outstanding beat is left to the bus partner. -/
def abandonOp (s : State) (o : Op) : State := leaveBeat o.beat (cutOffBeat o.beat s)

/-- R69: the port's reset. -/
def resetPort (s : State) : State :=
  (s.port.inFlight.foldl abandonOp s).modPort fun p =>
    { list := [], inFlight := [], stray := p.stray, lastFault := LastFault.none, faults := 0, late := 0 }

end Sys2Proof.Machine
end

