-- ==== Sys2Proof/Machine/Cache.lean ====
section
/-! DEFINITION. The Account Cache (chapter 2): lookup, recency and victims, write issue, evictions, flush-type writes,
fetch start, waiting lists, the slot-wait list, and the shortage rules of chapter 3 that evict slots. -/

namespace Sys2Proof.Machine

/-! ## Lookup, recency, victims -/

/-- The slot with the lowest number that passes a test. -/
def firstSlot (p : Slot → Bool) (s : State) : Option SlotNo :=
  ((allSlots.zip s.slots.toList).find? fun x => p x.2).map (·.1)

/-- R21: the slot, other than FREE, whose key is the given one. -/
def findSlot (k : Key) (s : State) : Option SlotNo := firstSlot (fun x => x.state != .free && x.key == k) s

/-- R25, course 2: the FREE slot with the lowest number. -/
def firstFree (s : State) : Option SlotNo := firstSlot (fun x => x.state == .free) s

/-- R21: the RESIDENT slot of a key, when its slot is RESIDENT. -/
def findResident (k : Key) (s : State) : Option SlotNo :=
  (findSlot k s).filter fun i => (s.slot i).state == .resident

/-- R28: slot `i` stands at the head of the recency list; the others keep their order. -/
def touch (i : SlotNo) (s : State) : State := s.setRecency (i :: s.recency.filter (· != i))

/-- R28: slot `i` leaves the recency list. -/
def leaveRecency (i : SlotNo) (s : State) : State := s.setRecency (s.recency.filter (· != i))

/-- R29: a slot eligible as a victim. -/
def Slot.eligible (x : Slot) : Bool := x.state == .resident && !x.writeInFlight && !x.wbFault

/-- R29: a clean eligible slot. -/
def Slot.cleanEligible (x : Slot) : Bool := x.eligible && !x.dirty

/-- R29: a dirty eligible slot. -/
def Slot.dirtyEligible (x : Slot) : Bool := x.eligible && x.dirty

/-- R29: the slot of a kind nearest the tail of the recency list. -/
def victim (p : Slot → Bool) (s : State) : Option SlotNo := s.recency.reverse.find? fun i => p (s.slot i)

/-- R46: the number of slots that pass a test. -/
def slotCount (p : Slot → Bool) (s : State) : Nat := s.slots.toList.countP p

/-! ## Writes and evictions -/

/-- R16, R58, R12: a write-back of slot `i` is issued: generation advanced, snapshot taken, dirty and wb_fault cleared,
a WRITE-BACK asked of the port. -/
def issueWrite (i : SlotNo) (s : State) : State :=
  let r := s.modSlot i fun x =>
    { x with
      record := { x.record with generation := x.record.generation + 1 }, dirty := false, wbFault := false }
  let x := r.slot i
  ask (.writeBack i x.key (homeAddr r x.key) (bytesWords (encodeImage x.record (r.products i)))) r

/-- R33: clean eviction of slot `i`: it becomes FREE. What becomes of the freed slot is the caller's rule. -/
def cleanEvict (i : SlotNo) (s : State) : State :=
  let r := (leaveRecency i (returnCells i s)).setSlot i Slot.unused
  r.modCounts fun c => { c with cleanEvictions := c.cleanEvictions + 1 }

/-- R34, R35: slot `i` becomes EVICTING, off the recency list, with an empty waiting list and rescued clear. -/
def beginEvicting (i : SlotNo) (s : State) : State :=
  (leaveRecency i s).modSlot i fun x => { x with state := .evicting, waiting := [], rescued := false }

/-- R34: the eviction write of slot `i` is issued and counted, with its requesters. -/
def evictionWrite (i : SlotNo) (reqs : List Requester) (s : State) : State :=
  let r := (issueWrite i s).modSlot i fun x => { x with writeReqs := reqs, nextReqs := [] }
  r.modCounts fun c => { c with dirtyEvictions := c.dirtyEvictions + 1 }

/-- R34: a dirty eviction of a RESIDENT slot without a write in flight. -/
def dirtyEvict (i : SlotNo) (reqs : List Requester) (s : State) : State := evictionWrite i reqs (beginEvicting i s)

/-- R35: an eviction owed behind the flush-type write in flight; the requester waits for the next write. -/
def oweEviction (i : SlotNo) (q : Requester) (s : State) : State :=
  (beginEvicting i s).modSlot i fun x => { x with nextReqs := x.nextReqs ++ [q] }

/-- R37, R45: the eviction of a RESIDENT slot for RETIRE or drain: written at once, or owed behind the write in flight. -/
def evictFor (i : SlotNo) (q : Requester) (s : State) : State :=
  if (s.slot i).writeInFlight then oweEviction i q s else dirtyEvict i [q] s

/-- R38: a slot with nothing to write. -/
def Slot.nothingToWrite (x : Slot) : Bool := !x.writeInFlight && !x.dirty && !x.wbFault

/-- R38: a flush-type write of slot `i` is issued, with the requesters it answers. -/
def flushWrite (i : SlotNo) (reqs : List Requester) (s : State) : State :=
  (issueWrite i s).modSlot i fun x => { x with writeInFlight := true, writeReqs := reqs, nextReqs := [] }

/-- R38: a flush request at a slot with something to write or a write in flight. -/
def placeFlush (i : SlotNo) (q : Requester) (s : State) : State :=
  if (s.slot i).writeInFlight then s.modSlot i fun x => { x with nextReqs := x.nextReqs ++ [q] }
  else flushWrite i [q] s

/-! ## Fetches and waiting -/

/-- R30: a fetch of a key starts in slot `i` with its waiting list. -/
def startFetch (i : SlotNo) (k : Key) (ws : List Waiter) (s : State) : State :=
  let r := s.setSlot i { Slot.unused with state := .fetching, key := k, waiting := ws }
  ask (.fetch i k (homeAddr r k)) (r.modCounts fun c => { c with misses := c.misses + 1 })

/-- The key that an entry of the slot-wait list carries (R41). -/
def waiterKey (s : State) : Waiter → Key
  | .tap c =>
    match s.ctx c with
    | some x => x.key
    | none => 0
  | .change => s.change.key

/-- R97: a waiting tap's context enters AWAIT_RECORD or AWAIT_SLOT. -/
def setAwait (record : Bool) (w : Waiter) (s : State) : State :=
  match w with
  | .tap c =>
    match s.ctx c with
    | some x => s.setCtx c (some { x with awaitRecord := record })
    | none => s
  | .change => s

/-- R43: each tap context handed over enters AWAIT_RECORD. -/
def awaitAll (ws : List Waiter) (s : State) : State := ws.foldl (fun s w => setAwait true w s) s

/-- R43: a slot that has become FREE is handed to the oldest slot-wait entry and the later entries with its key. -/
def handOver (i : SlotNo) (s : State) : State :=
  match s.slotWait with
  | [] => s
  | w :: _ =>
    let k := waiterKey s w
    let ws := s.slotWait.filter fun v => waiterKey s v == k
    startFetch i k ws (awaitAll ws (s.setSlotWait (s.slotWait.filter fun v => waiterKey s v != k)))

/-- R23, R24: a request joins the tail of a slot's waiting list and rescues an EVICTING slot. -/
def joinWaiting (i : SlotNo) (w : Waiter) (s : State) : State :=
  let r := setAwait true w (s.modSlot i fun x => { x with waiting := x.waiting ++ [w] })
  if (s.slot i).state == .evicting && !(s.slot i).rescued then
    (r.modSlot i fun x => { x with rescued := true }).modCounts fun c => { c with rescues := c.rescues + 1 }
  else r

/-- R41: a request joins the tail of the slot-wait list. -/
def joinSlotWait (w : Waiter) (s : State) : State := setAwait false w (s.setSlotWait (s.slotWait ++ [w]))

/-- R42, R36: the dirty eligible slot nearest the tail is evicted, or SLOT_SHORT is raised. -/
def seekDirtyVictim (s : State) : State :=
  match victim Slot.dirtyEligible s with
  | some i => dirtyEvict i [] s
  | none => raise .slotShort s

/-- R25: a request whose key has no slot. -/
def miss (k : Key) (w : Waiter) (s : State) : State :=
  if s.slotWait.any fun v => waiterKey s v == k then joinSlotWait w s
  else
    match firstFree s with
    | some i => startFetch i k [w] (setAwait true w s)
    | none =>
      match victim Slot.cleanEligible s with
      | some i => startFetch i k [w] (setAwait true w (cleanEvict i s))
      | none => seekDirtyVictim (joinSlotWait w s)

/-- R26, R41: an entry is withdrawn from the waiting list or the slot-wait list that holds it; the others keep their
order. -/
def withdraw (w : Waiter) (s : State) : State :=
  (s.setSlots (s.slots.map fun x => { x with waiting := x.waiting.filter (· != w) })).setSlotWait
    (s.slotWait.filter (· != w))

/-! ## Reclaim, the cleaner, shortage -/

/-- `n` repetitions of a step. -/
def iterate (f : State → State) : Nat → State → State
  | 0, s => s
  | n + 1, s => iterate f n (f s)

/-- R44: one clean eviction and hand-over, while the slot-wait list holds entries. -/
def reclaimOne (s : State) : State :=
  match s.slotWait with
  | [] => s
  | _ :: _ =>
    match victim Slot.cleanEligible s with
    | some i => handOver i (cleanEvict i s)
    | none => s

/-- R44: reclaim: repeated until the list is empty or no clean eligible slot exists (each turn takes an entry away). -/
def reclaimRun (s : State) : State := iterate reclaimOne s.slotWait.length s

/-- R40: the cleaner's condition. -/
def cleanerActs (s : State) : Bool :=
  s.running && s.counts.cleanerWrites < 2 && slotCount (fun x => x.state == .free || x.cleanEligible) s < 16

/-- R40: one cleaner write, when the condition holds. -/
def cleanerOne (s : State) : State :=
  if cleanerActs s then
    match victim Slot.dirtyEligible s with
    | some i =>
      ((flushWrite i [] s).modSlot i fun x => { x with cleaner := true }).modCounts fun c =>
        { c with cleanerWrites := c.cleanerWrites + 1 }
    | none => s
  else s

/-- R40: the cleaner issues writes one after another; at most two can be issued. -/
def cleanerRun (s : State) : State := cleanerOne (cleanerOne s)

/-- R53, R55, R56: clean eligible slots with cells, other than `own`, are freed from the tail of the recency list on,
each handed over, until the free count is at least `n`. -/
def freeClean (own : SlotNo) (n : Nat) : List SlotNo → State → State
  | [], s => s
  | i :: l, s =>
    if s.pool.free.length < n && i != own && (s.slot i).cleanEligible && !(s.slot i).cells.isEmpty then
      freeClean own n l (handOver i (cleanEvict i s))
    else freeClean own n l s

/-- R53: freeing clean slots for slot `own`, sought from the tail of the recency list. -/
def freeCleanFor (own : SlotNo) (n : Nat) (s : State) : State := freeClean own n s.recency.reverse s

/-- R54, step 1: dirty eligible slots with cells are evicted from the tail on until their cells cover the shortfall. -/
def evictForCells (need : Nat) : List SlotNo → State → State
  | [], s => s
  | i :: l, s =>
    if 0 < need && (s.slot i).dirtyEligible && !(s.slot i).cells.isEmpty then
      evictForCells (need - (s.slot i).cells.length) l (dirtyEvict i [] s)
    else evictForCells need l s

/-- R26, R90: a DEADLINE_ACCEPT on the waiting list of a FETCHING slot adds one to its pending deadline passes. -/
def addPass (w : Waiter) (s : State) : State :=
  s.setSlots
    (s.slots.map fun x => if x.state == .fetching && x.waiting.contains w then { x with passes := satInc8 x.passes } else x)

/-- R20: the cache's reset. -/
def resetCache (s : State) : State :=
  (((s.setSlots (Vector.replicate 256 Slot.unused)).setRecency []).setSlotWait []).setCounts
    { misses := 0, cleanEvictions := 0, dirtyEvictions := 0, rescues := 0, cleanerWrites := 0 }

end Sys2Proof.Machine
end

