-- ==== Sys2Proof/Machine/Tariff.lean ====
section
/-! DEFINITION. The Tariff Unit (chapter 7): the active and shadow banks, the tariff and range commands, and the choice of
the winning range rule. -/

namespace Sys2Proof.Machine

/-! ## Banks -/

/-- R127: the active bank. -/
def Tariff.active (t : Tariff) : Bank := if t.activeB then t.bankB else t.bankA

/-- R127: the shadow bank. -/
def Tariff.shadow (t : Tariff) : Bank := if t.activeB then t.bankA else t.bankB

/-- Replaces the shadow bank alone. -/
def Tariff.setShadow (t : Tariff) (b : Bank) : Tariff :=
  if t.activeB then { t with bankA := b } else { t with bankB := b }

/-- The class entry of a class. -/
def Bank.classEntry (b : Bank) (c : ClassNo) : ClassEntry := b.classes.get c

/-- R126: the base fare at row the entry group, column the exit group. -/
def Bank.baseFare (b : Bank) (entry exit : Group) : Half := (b.fares.get entry).get exit

/-- R125: the ranges of a class entry's parameters. -/
def ClassEntry.inRange (e : ClassEntry) : Bool :=
  e.percent.toNat ≤ 200 && 1 ≤ e.burst.toNat && e.burst.toNat ≤ 15 && 1 ≤ e.refill.toNat && 60 ≤ e.maxTrip.toNat

/-- Table 12.4: the class entry in a LOAD CLASS payload. -/
def classEntryOf (p : List Byte) : ClassEntry :=
  { minEntry := halfAt p 0, overdraft := halfAt p 2, percent := halfAt p 4, unmatched := halfAt p 6,
    passback := halfAt p 8, burst := halfAt p 10, refill := halfAt p 12, maxTrip := halfAt p 14 }

/-- Table 12.4: the fare matrix in a LOAD FARES payload. -/
def faresOf (p : List Byte) : Vector (Vector Half 8) 8 :=
  Vector.ofFn fun r => Vector.ofFn fun c => halfAt p (16 * r.val + 2 * c.val)

/-- R194: a block's index, byte 12. -/
def Block.index (b : Block) : Nat := (b.ident.extractLsb' 0 8).toNat

/-- The epoch of the active bank as a block's result. -/
def epochResult (s : State) : Word := s.tariff.epoch.zeroExtend 32

/-- R129: LOAD CLASS. -/
def loadClass (b : Block) (s : State) : State × Status × Word :=
  let e := classEntryOf b.payload
  if h : b.index < 8 then
    if e.inRange then
      let sh := s.tariff.shadow
      (s.setTariff (s.tariff.setShadow { sh with classes := sh.classes.set b.index e h }), .ok, epochResult s)
    else (s, .badArgument, 0)
  else (s, .badArgument, 0)

/-- R130: LOAD FARES. -/
def loadFares (b : Block) (s : State) : State × Status × Word :=
  (s.setTariff (s.tariff.setShadow { s.tariff.shadow with fares := faresOf b.payload }), .ok, epochResult s)

/-- R131: COPY ACTIVE. -/
def copyActive (s : State) : State × Status × Word :=
  (s.setTariff (s.tariff.setShadow s.tariff.active), .ok, epochResult s)

/-- R132: SWITCH TARIFF. -/
def switchTariff (s : State) : State × Status × Word :=
  let r := s.setTariff { s.tariff with activeB := !s.tariff.activeB, epoch := s.tariff.epoch + 1 }
  (r, .ok, epochResult r)

/-! ## Range rules -/

/-- R135: an identifier matches a rule in force. -/
def RangeRule.covers (r : RangeRule) (x : Ident) : Bool :=
  r.level.val != 0 && x >>> r.exponent.val == r.base >>> r.exponent.val

/-- The numbers of the range rules, in increasing order. -/
def allRules : List (Fin 16) := List.finRange 16

/-- R136: rule `n` wins over the best found so far (rules are tried in number order, so an equal level does not win). -/
def beats (s : State) (x : Ident) (best : Option (Fin 16)) (n : Fin 16) : Bool :=
  (s.ranges.get n).covers x &&
    match best with
    | none => true
    | some b => (s.ranges.get b).level < (s.ranges.get n).level

/-- R136: the winning rule for an identifier. -/
def winningRule (x : Ident) (s : State) : Option (Fin 16) :=
  allRules.foldl (fun best n => if beats s x best n then some n else best) none

/-- R137: a WATCH win writes Last Watch and raises WATCH. -/
def watchWin (line : LineNo) (x : Ident) (n : Fin 16) (s : State) : State :=
  raise .watch (s.setLastWatch { valid := true, line := line, ident := x, rule := n })

/-- Table 12.4: the action that a byte of a SET RANGE payload names. -/
def actionOf (b : Byte) : Option RangeAction :=
  if b = 0 then some .deny else if b = 1 then some .cls else if b = 2 then some .watch else none

/-- R138: the rule that a SET RANGE payload holds, when its fields are in range. -/
def rangeRuleOf (p : List Byte) : Option RangeRule :=
  let level := (byteAt p 0).toNat
  let exponent := (byteAt p 1).toNat
  match actionOf (byteAt p 2) with
  | none => none
  | some a =>
    if h : level < 4 ∧ exponent < 41 then
      let cls := if a = .cls then (byteAt p 3).toNat else 0
      if h' : cls < 8 then
        some { level := ⟨level, h.1⟩, base := identAt p 4, exponent := ⟨exponent, h.2⟩, action := a, cls := ⟨cls, h'⟩ }
      else none
    else none

/-- R138: the number of rules whose level is above 0. -/
def rulesInForce (s : State) : Nat := allRules.countP fun n => (s.ranges.get n).level.val != 0

/-- R138: SET RANGE. -/
def setRange (b : Block) (s : State) : State × Status × Word :=
  if h : b.index < 16 then
    match rangeRuleOf b.payload with
    | some r =>
      let t := s.setRanges (s.ranges.set b.index r h)
      (t, .ok, BitVec.ofNat 32 (rulesInForce t))
    | none => (s, .badArgument, 0)
  else (s, .badArgument, 0)

/-- R125 to R127, R133, R134, R137: the Tariff Unit's reset. -/
def resetTariff (s : State) : State :=
  ((s.setTariff
      { bankA := Bank.reset, bankB := Bank.reset, activeB := false, epoch := 0,
        view := { bankB := false, row := false, number := 0 } }).setRanges
    (Vector.replicate 16 RangeRule.reset)).setLastWatch LastWatch.reset

end Sys2Proof.Machine
end

