-- ==== Sys2Proof/Machine/Resolve.lean ====
section
/-! DEFINITION. Tap resolution (chapter 6): the stages R104 to R118 on a copy of the record, the writing of the outcome
(R118, R119) and the verdict's delivery (R84). -/

namespace Sys2Proof.Machine

/-! ## Quantities -/

/-- R177: the day number of a seconds count. -/
def dayOf (now : Word) : Nat := now.toNat / 86400

/-- R107: the elapsed time from a stamp to now, a signed number of seconds. -/
def elapsedFrom (now stamp : Word) : Int := (now.toNat : Int) - (stamp.toNat : Int)

/-- R108, R114: the elapsed time with a negative value counted as 0. -/
def elapsedNat (now stamp : Word) : Nat := (elapsedFrom now stamp).toNat

/-- R6: an entry is valid on a day. -/
def ProductEntry.validOn (p : ProductEntry) (day : Nat) : Bool := p.firstDay.toNat ≤ day && day ≤ p.lastDay.toNat

/-- R6: the zone mask holds a gate group. -/
def ProductEntry.holds (p : ProductEntry) (g : Group) : Bool := p.zoneMask.getLsbD g.val

/-- What resolution reads, once, as it stands at its event (R103). -/
structure TapView where
  now : Word
  entry : ClassEntry
  fares : Bank
  epoch : Byte
  mode : Mode
  direction : Direction
  group : Group
  line : LineNo
  watch : Bool
  products : List ProductEntry

/-- An accepted tap: the record to be written, the fare charged, and the paying product's place and new entry. -/
structure Accepted where
  record : Record
  fare : Half
  paid : Option (Nat × ProductEntry)

/-! ## Entry -/

/-- R108, stage 4a: a re-entry within the passback time is refused. -/
def passbackRefuses (v : TapView) (r : Record) : Bool :=
  r.trip == .within && elapsedNat v.now r.entryStamp < v.entry.passback.toNat

/-- R109, R117: a debit would take the balance below the negated overdraft allowance. -/
def overdrawn (v : TapView) (balance : Int) (fare : Half) : Bool :=
  balance - fare.toNat < -(v.entry.overdraft.toNat : Int)

/-- R109, stage 4b: the fare charged when the open trip is closed. -/
def closingFare (v : TapView) (r : Record) : Half := if r.trip = .within then v.entry.unmatched else 0

/-- R109, stage 4b: the open trip is closed on the copy and charged the unmatched fare. -/
def closeTrip (v : TapView) (r : Record) : Record :=
  if r.trip = .within then { r with trip := .out, balance := r.balance - v.entry.unmatched.toNat } else r

/-- R110, stage 4c: the refill of the velocity tokens. -/
def refill (v : TapView) (r : Record) : Record :=
  let burst := v.entry.burst.toNat
  let elapsed := elapsedFrom v.now r.refillMark
  if elapsed < 0 || burst ≤ r.tokens.val then { r with refillMark := v.now }
  else
    let periods := elapsed.toNat / v.entry.refill.toNat
    if burst ≤ r.tokens.val + periods then { r with tokens := Fin.ofNat 16 burst, refillMark := v.now }
    else
      { r with
        tokens := Fin.ofNat 16 (r.tokens.val + periods),
        refillMark := r.refillMark + BitVec.ofNat 32 (periods * v.entry.refill.toNat) }

/-- R112, stage 4e: a PERIOD PASS valid today for the tap's gate group. -/
def entryPass (v : TapView) : Bool :=
  v.products.any fun p => p.kind == .periodPass && p.validOn (dayOf v.now) && p.holds v.group

/-- R118: the updates that every accepted tap makes. -/
def acceptedUpdates (v : TapView) (r : Record) : Record :=
  { r with
    lastTapStamp := v.now, lastTapLine := v.line, tapCount := r.tapCount + 1,
    watchHits := if v.watch then satInc8 r.watchHits else r.watchHits }

/-- R113, stage 4f: the entry is accepted. -/
def openTrip (v : TapView) (r : Record) : Record :=
  { r with
    trip := .within, entryGroup := v.group, entryEpoch := v.epoch, entryStamp := v.now, tokens := r.tokens - 1 }

/-- Stage 4 (R108 to R113) on a copy of the record. -/
def resolveEntry (v : TapView) (r : Record) : Except Reason Accepted :=
  if passbackRefuses v r then .error .passback
  else if r.trip == .within && overdrawn v r.balance v.entry.unmatched then .error .lowBalance
  else
    let r1 := refill v (closeTrip v r)
    if r1.tokens.val = 0 then .error .velocity
    else if !entryPass v && r1.balance < v.entry.minEntry.toNat then .error .lowBalance
    else .ok { record := acceptedUpdates v (openTrip v r1), fare := closingFare v r, paid := none }

/-! ## Exit -/

/-- R114, stage 5a: the exit is matched. -/
def matchedExit (v : TapView) (r : Record) : Bool :=
  r.trip == .within && elapsedNat v.now r.entryStamp < v.entry.maxTrip.toNat

/-- R115, stage 5b: the fare of a matched exit. -/
def matchedFare (v : TapView) (r : Record) : Half :=
  BitVec.ofNat 16 (min 65535 ((v.fares.baseFare r.entryGroup v.group).toNat * v.entry.percent.toNat / 100))

/-- R116: an entry is valid today and covers the trip. -/
def coversTrip (v : TapView) (r : Record) (p : ProductEntry) : Bool :=
  p.validOn (dayOf v.now) && p.holds r.entryGroup && p.holds v.group

/-- R116, stage 5c: the place and new entry of the product that pays, when one does. -/
def payingProduct (v : TapView) (r : Record) : Option (Nat × ProductEntry) :=
  match v.products.findIdx? fun p => p.kind == .periodPass && coversTrip v r p with
  | some n => v.products[n]?.map fun p => (n, { p with uses := p.uses + 1 })
  | none =>
    match v.products.findIdx? fun p => p.kind == .rideBundle && coversTrip v r p && p.rides != 0 with
    | some n => v.products[n]?.map fun p => (n, { p with rides := p.rides - 1, uses := p.uses + 1 })
    | none => none

/-- R118, stage 5e: the trip is closed; the entry fields keep their values. -/
def closedRecord (v : TapView) (r : Record) : Record := acceptedUpdates v { r with trip := .out }

/-- R117, stage 5d: the debit of a fare. -/
def debit (v : TapView) (r : Record) (fare : Half) : Except Reason Accepted :=
  if overdrawn v r.balance fare then .error .lowBalance
  else .ok { record := closedRecord v { r with balance := r.balance - fare.toNat }, fare := fare, paid := none }

/-- Stage 5 (R114 to R118) on a copy of the record. -/
def resolveExit (v : TapView) (r : Record) : Except Reason Accepted :=
  if matchedExit v r then
    match payingProduct v r with
    | some p => .ok { record := closedRecord v r, fare := 0, paid := some p }
    | none => debit v r (matchedFare v r)
  else debit v r v.entry.unmatched

/-! ## The resolution event -/

/-- R106, stage 3: the direction disagrees with the line's mode. -/
def wrongDirection (m : Mode) (d : Direction) : Bool :=
  match m, d with
  | .entry, .exit => true
  | .exit, .entry => true
  | _, _ => false

/-- R104, stage 1, and stages 3 to 5 (R106 to R118). -/
def resolve (v : TapView) (x : Ident) (r : Record) : Except Reason Accepted :=
  if r.state == .empty || r.ident != x then .error .notEnrolled
  else if r.state == .blocked then .error .blocked
  else if wrongDirection v.mode v.direction then .error .direction
  else
    match v.direction with
    | .entry => resolveEntry v r
    | .exit => resolveExit v r

/-- R119, Table 6.3: the counts that a refusal writes. -/
def refusedRecord (why : Reason) (watch : Bool) (r : Record) : Record :=
  if why = .notEnrolled then r
  else
    { r with
      blockedTaps := if why = .blocked then satInc8 r.blockedTaps else r.blockedTaps,
      watchHits := if watch then satInc8 r.watchHits else r.watchHits }

/-- R119: a refusal writes a count, and so sets dirty. -/
def refusalWrites (why : Reason) (watch : Bool) : Bool := why = .blocked || (why != .notEnrolled && watch)

/-- R105, stage 2: the class of a tap. -/
def tapClass (m : RuleMark) (r : Record) : ClassNo :=
  match m with
  | .cls c => c
  | _ => r.fareClass

/-- R103, R105: what the resolution of a tap at slot `i` reads. -/
def viewAt (i : SlotNo) (x : TapContext) (s : State) : TapView :=
  { now := s.clock.seconds, entry := s.tariff.active.classEntry (tapClass x.mark (s.slot i).record),
    fares := s.tariff.active, epoch := s.tariff.epoch, mode := (s.line x.line).config.mode, direction := x.direction,
    group := x.group, line := x.line, watch := x.mark == .watch, products := s.products i }

/-- R122: a verdict that carries no record's values. -/
def plainVerdict (sequence : Byte) (o : VOutcome) (why : Reason) (s : State) : Verdict :=
  { sequence := sequence, outcome := o, reason := why, fare := 0, balance := 0, tag := 0, rides := 0,
    epoch := s.tariff.epoch }

/-- R116: the rides remaining that a verdict shows for a paying product. -/
def ridesShown (p : ProductEntry) : Half := if p.kind = .rideBundle then p.rides else 0

/-- R84: a verdict is delivered to an IN_FLIGHT line: the timer stops and the line becomes READY. -/
def deliver (n : LineNo) (v : Verdict) (s : State) : State :=
  s.modLine n fun l =>
    if l.state = .inFlight then { l with state := .ready, ctx := none, verdict := some v, timer := none } else l

/-- R116, R52: the paying product's entry is written into its cell in place. -/
def writePaid (i : SlotNo) (paid : Option (Nat × ProductEntry)) (s : State) : State :=
  match paid with
  | none => s
  | some (n, p) =>
    match (s.slot i).cells[n]? with
    | some c => s.setPool (s.pool.write c p)
    | none => s

/-- R113, R116, R118: the verdict of an accepted tap. -/
def acceptVerdict (x : TapContext) (a : Accepted) (s : State) : Verdict :=
  { sequence := x.sequence, outcome := .accept, reason := .none, fare := a.fare, balance := a.record.balance,
    tag := (a.paid.map fun p => p.2.tag).getD 0, rides := (a.paid.map fun p => ridesShown p.2).getD 0,
    epoch := s.tariff.epoch }

/-- R119: the verdict of a refusal at resolution. -/
def refuseVerdict (x : TapContext) (why : Reason) (r : Record) (s : State) : Verdict :=
  { plainVerdict x.sequence .refuse why s with balance := if why = .notEnrolled then 0 else r.balance }

/-- R103: a tap is decided against the RESIDENT record of slot `i`; the record is written, the slot moves to the recency
head and the verdict is delivered. -/
def resolveAt (i : SlotNo) (x : TapContext) (s : State) : State :=
  let r := (s.slot i).record
  match resolve (viewAt i x s) x.ident r with
  | .ok a =>
    let t := writePaid i a.paid (s.modSlot i fun y => { y with record := a.record, dirty := true })
    deliver x.line (acceptVerdict x a s) (touch i t)
  | .error why =>
    let watch := x.mark == .watch
    let t := s.modSlot i fun y =>
      { y with record := refusedRecord why watch r, dirty := y.dirty || refusalWrites why watch }
    deliver x.line (refuseVerdict x why r s) (touch i t)

/-- R84, R97: a waiting tap's context ends with a verdict that carries no record's values. -/
def answerTap (c : CtxNo) (o : VOutcome) (why : Reason) (s : State) : State :=
  match s.ctx c with
  | none => s
  | some x => deliver x.line (plainVerdict x.sequence o why s) (s.setCtx c none)

/-- R120: a waiting tap is resolved at slot `i` and its context ends. -/
def resolveWaiting (i : SlotNo) (c : CtxNo) (s : State) : State :=
  match s.ctx c with
  | none => s
  | some x => resolveAt i x (s.setCtx c none)

end Sys2Proof.Machine
end

