-- ==== Sys2Proof/Machine/Records.lean ====
section
/-! DEFINITION. Record commands at a RESIDENT slot (R150 to R157), the answers that a slot's write gives (R36, R39), the
statuses and urgent results they lead to (R159, R166), block marks (R169), and the serving of a waiting list (R27). -/

namespace Sys2Proof.Machine

/-! ## Statuses, urgent results, marks -/

/-- R159: the STATUS WRITE of the block in progress is asked for; the unit is STORING until it ends. -/
def storeStatus (c : Status) (result : Word) (s : State) : State :=
  ask (.statusWrite s.change.blockAddr result (statusHalf c)) (s.modChange fun u => { u with state := .storing })

/-- R166: an urgent command ends; URGENT_DONE is raised. -/
def finishUrgent (r : UrgentResult) (value : Half) (s : State) : State :=
  raise .urgentDone (s.modUrgent fun u => { u with state := .done, result := r, value := value })

/-- R169, R170: the mark for an identifier, when present, is removed; no other mark moves. -/
def removeMark (x : Ident) (s : State) : State := s.setMarks (s.marks.map fun m => if m = some x then none else m)

/-- R101: a mark for an identifier is in the table. -/
def markedIdent (x : Ident) (s : State) : Bool := s.marks.toList.any (· == some x)

/-- R169: the number of marks. -/
def markCount (s : State) : Nat := s.marks.toList.countP (·.isSome)

/-- The status of a block that a slot's write answers (R156, R157, R158). -/
def writeStatus (ok : Bool) : Status := if ok then .ok else .memFault

/-- R158: one request of a FLUSH ALL is answered; the last answer completes the block. -/
def answerFlushAll (ok : Bool) (s : State) : State :=
  let left := s.change.outstanding - 1
  let failed := if ok then s.change.failures else s.change.failures + 1
  let r := s.modChange fun u => { u with outstanding := left, failures := failed }
  if left = 0 then storeStatus (writeStatus (failed = 0)) (BitVec.ofNat 32 failed) r else r

/-- R36, R39: a requester of a slot's write is answered with the outcome and the generation carried. -/
def answer (ok : Bool) (generation : Half) (q : Requester) (s : State) : State :=
  match q with
  | .changeFlush => storeStatus (writeStatus ok) (generation.zeroExtend 32) s
  | .retire => storeStatus (writeStatus ok) (generation.zeroExtend 32) s
  | .flushAll => answerFlushAll ok s
  | .urgent => finishUrgent (if ok then .ok else .memFault) generation s
  | .drain => s

/-- Several requesters answered, one after another. -/
def answerAll (ok : Bool) (generation : Half) (qs : List Requester) (s : State) : State :=
  qs.foldl (fun s q => answer ok generation q s) s

/-! ## The record commands -/

/-- The account key of the block in progress, as a result (Table 8.4). -/
def keyResult (s : State) : Word := s.change.key.zeroExtend 32

/-- The product count of slot `i`, as a result (Table 8.4). -/
def countResult (i : SlotNo) (s : State) : Word := BitVec.ofNat 32 (s.slot i).cells.length

/-- R150: the identity and state check: none when it passes, else the status of the refusal. -/
def identityCheck (c : ChangeCommand) (x : Ident) (r : Record) : Option Status :=
  if c = .enroll then
    if r.state = .empty then none else if r.ident = x then some .exists_ else some .keyClash
  else if r.state = .empty then some .notEnrolled
  else if r.ident ≠ x then some .idMismatch
  else none

/-- R150, R19: a record command changes the record of slot `i`, and the slot becomes dirty. -/
def amendRecord (i : SlotNo) (f : Record → Record) (s : State) : State :=
  s.modSlot i fun y => { y with record := f y.record, dirty := true }

/-- R9, R6: an entry of a payload as it is placed: uses starts at 0. -/
def ProductEntry.fresh (p : ProductEntry) : ProductEntry := { p with uses := 0 }

/-- The velocity burst of a class in the active bank (R4, R9, R128). -/
def burstOf (s : State) (c : ClassNo) : Fin 16 := Fin.ofNat 16 (s.tariff.active.classEntry c).burst.toNat

/-- R151: the checks of ENROLL on a block: its class and entries, when every check passes. -/
def enrollArgs (b : Block) : Option (ClassNo × List ProductEntry) :=
  let p := b.payload
  if h : (byteAt p 0).toNat < 8 then
    if b.ident ≠ 0 ∧ (byteAt p 1).toNat ≤ 12 ∧ balanceInRange (wordAt p 4).toInt = true then
      (decodeProducts p 8 (byteAt p 1).toNat).map fun ps => (⟨(byteAt p 0).toNat, h⟩, ps.map ProductEntry.fresh)
    else none
  else none

/-- R9: the core that ENROLL writes; the generation keeps its value. -/
def enrolledRecord (b : Block) (c : ClassNo) (s : State) (old : Record) : Record :=
  { Record.empty old.generation with
    ident := b.ident, state := .active, fareClass := c, balance := (wordAt b.payload 4).toInt, tokens := burstOf s c,
    refillMark := s.clock.seconds }

/-- A block refused for want of cells (R55 to R57). -/
def refuseCellShort (result : Word) (s : State) : State := raise .cellShort (storeStatus .cellShort result s)

/-- R151, R55: ENROLL at slot `i`. -/
def applyEnroll (i : SlotNo) (s : State) : State :=
  match enrollArgs s.change.block with
  | none => storeStatus .badArgument (keyResult s) s
  | some (c, ps) =>
    let r := freeCleanFor i ps.length s
    if ps.length ≤ r.pool.free.length then
      storeStatus .ok (keyResult s) (amendRecord i (enrolledRecord s.change.block c s) (takeCells i ps r))
    else refuseCellShort (keyResult s) r

/-- R152: the field mask and class of an AMEND pass its checks. -/
def amendValid (b : Block) : Bool :=
  let mask := byteAt b.payload 0
  mask != 0 && mask &&& 0xF0#8 == 0 && (!mask[0] || (byteAt b.payload 1).toNat < 8)

/-- R152: the flags of an AMEND applied in order. -/
def amendedRecord (b : Block) (s : State) (r : Record) : Record :=
  let mask := byteAt b.payload 0
  let r1 := if mask[0] then { r with fareClass := Fin.ofNat 8 (byteAt b.payload 1).toNat } else r
  let r2 := if mask[1] then { r1 with trip := .out } else r1
  let r3 := if mask[2] then { r2 with tokens := burstOf s r2.fareClass, refillMark := s.clock.seconds } else r2
  if mask[3] then { r3 with deadlinePasses := 0, blockedTaps := 0, watchHits := 0 } else r3

/-- R152: AMEND at slot `i`. -/
def applyAmend (i : SlotNo) (s : State) : State :=
  if amendValid s.change.block then
    storeStatus .ok (keyResult s) (amendRecord i (amendedRecord s.change.block s) s)
  else storeStatus .badArgument (keyResult s) s

/-- R153: ADJUST at slot `i`. -/
def applyAdjust (i : SlotNo) (s : State) : State :=
  let old := (s.slot i).record.balance
  let new := old + (wordAt s.change.block.payload 0).toInt
  if balanceInRange new then
    storeStatus .ok (BitVec.ofInt 32 new) (amendRecord i (fun r => { r with balance := new }) s)
  else storeStatus .balanceLimit (BitVec.ofInt 32 old) s

/-- R154, R56: ADD PRODUCT at slot `i`. -/
def applyAddProduct (i : SlotNo) (s : State) : State :=
  if 12 ≤ (s.slot i).cells.length then storeStatus .productFull (countResult i s) s
  else
    match decodeProduct s.change.block.payload 0 with
    | none => storeStatus .badArgument (countResult i s) s
    | some p =>
      let r := freeCleanFor i 1 s
      if 1 ≤ r.pool.free.length then
        let t := amendRecord i id (takeCells i [p.fresh] r)
        storeStatus .ok (countResult i t) t
      else refuseCellShort (countResult i s) r

/-- R154: the cell of the first entry whose tag is the given one. -/
def cellWithTag (i : SlotNo) (tag : Half) (s : State) : Option CellNo :=
  (s.slot i).cells.find? fun c => (s.pool.entry c).tag == tag

/-- R154, R51: REMOVE PRODUCT at slot `i`. -/
def applyRemoveProduct (i : SlotNo) (s : State) : State :=
  match cellWithTag i (halfAt s.change.block.payload 0) s with
  | none => storeStatus .noProduct (countResult i s) s
  | some c =>
    let t := amendRecord i id (returnCell i c s)
    storeStatus .ok (countResult i t) t

/-- R155: BLOCK at slot `i`. -/
def applyBlock (i : SlotNo) (s : State) : State :=
  storeStatus .ok (keyResult s) (amendRecord i (fun r => { r with state := .blocked }) s)

/-- R155: UNBLOCK at slot `i`. -/
def applyUnblock (i : SlotNo) (s : State) : State :=
  storeStatus .ok (keyResult s)
    (removeMark s.change.block.ident (amendRecord i (fun r => { r with state := .active }) s))

/-- R156, R37: RETIRE at slot `i`; its status waits for the eviction write. -/
def applyRetire (i : SlotNo) (s : State) : State :=
  let r := amendRecord i (fun r => Record.empty r.generation) (returnCells i s)
  (evictFor i .retire (removeMark (s.slot i).record.ident r)).modChange fun u => { u with state := .storing }

/-- R157, R38: FLUSH at slot `i`. -/
def applyFlush (i : SlotNo) (s : State) : State :=
  if (s.slot i).nothingToWrite then storeStatus .ok ((s.slot i).record.generation.zeroExtend 32) s
  else (placeFlush i .changeFlush s).modChange fun u => { u with state := .storing }

/-- The part of a record command that follows a passed identity and state check. -/
def applyChecked (c : ChangeCommand) (i : SlotNo) (s : State) : State :=
  match c with
  | .enroll => applyEnroll i s
  | .amend => applyAmend i s
  | .adjust => applyAdjust i s
  | .addProduct => applyAddProduct i s
  | .removeProduct => applyRemoveProduct i s
  | .block => applyBlock i s
  | .unblock => applyUnblock i s
  | .retire => applyRetire i s
  | .flush => applyFlush i s
  | .nop | .flushAll | .setRange | .loadClass | .loadFares | .copyActive | .switchTariff => s

/-- R150: the record command of the block in progress is taken at RESIDENT slot `i`, which moves to the recency head. -/
def applyCommand (c : ChangeCommand) (i : SlotNo) (s : State) : State :=
  match identityCheck c s.change.block.ident (s.slot i).record with
  | some st => storeStatus st (keyResult s) (touch i s)
  | none => applyChecked c i (touch i s)

/-- R149, R150: the waiting change request is taken at slot `i`. -/
def applyWaiting (i : SlotNo) (s : State) : State :=
  match commandOf s.change.block.command with
  | some c => applyCommand c i s
  | none => s

/-! ## Serving a waiting list -/

/-- R22: an entry is taken at RESIDENT slot `i`. -/
def takeEntry (i : SlotNo) (w : Waiter) (s : State) : State :=
  match w with
  | .tap c => resolveWaiting i c s
  | .change => applyWaiting i s

/-- R27: the entries left behind a RETIRE stay as the waiting list of the EVICTING slot, which they rescue. -/
def keepBehindRetire (i : SlotNo) (ws : List Waiter) (s : State) : State :=
  match ws with
  | [] => s
  | _ :: _ =>
    (s.modSlot i fun x => { x with waiting := ws, rescued := true }).modCounts fun c =>
      { c with rescues := c.rescues + 1 }

/-- R27: a waiting list is served at slot `i`, one entry after another. -/
def serve (i : SlotNo) : List Waiter → State → State
  | [], s => s
  | w :: ws, s =>
    let r := takeEntry i w s
    if (r.slot i).state == .resident then serve i ws r else keepBehindRetire i ws r

/-- R14, R32, R54, R121: an entry of a given-up fetch is answered without a record. -/
def answerWaiter (o : VOutcome) (why : Reason) (c : Status) (w : Waiter) (s : State) : State :=
  match w with
  | .tap x => answerTap x o why s
  | .change => storeStatus c (keyResult s) s

/-- Every entry of a given-up fetch is answered. -/
def answerWaiters (o : VOutcome) (why : Reason) (c : Status) (ws : List Waiter) (s : State) : State :=
  ws.foldl (fun s w => answerWaiter o why c w s) s

end Sys2Proof.Machine
end

