-- ==== Sys2Proof/Machine/Settle.lean ====
section
/-! DEFINITION. The ends of fetches and slot writes at the cache (R14, R31, R32, R35, R36, R39), and the tests made at the
end of an event: reclaim, drain, cleaner, port (R44, R190, R191, R40, R60). -/

namespace Sys2Proof.Machine

/-! ## The end of a fetch -/

/-- R31, step 3: the record enters slot `i`, RESIDENT at the head of the recency list, every flag clear, with its cells. -/
def enterRecord (i : SlotNo) (r : Record) (ps : List ProductEntry) (s : State) : State :=
  let t := s.setSlot i { Slot.unused with state := .resident, key := (s.slot i).key, record := r }
  touch i (takeCells i ps t)

/-- R31, step 4: a block mark for the record's identifier makes an ACTIVE or BLOCKED record BLOCKED and is removed. -/
def applyMark (i : SlotNo) (s : State) : State :=
  let r := (s.slot i).record
  if r.state != .empty && markedIdent r.ident s then
    removeMark r.ident (amendRecord i (fun r => { r with state := .blocked }) s)
  else s

/-- R31, step 5: pending deadline passes are folded into the record. -/
def foldPasses (i : SlotNo) (passes : Byte) (s : State) : State :=
  if passes = 0 then s
  else amendRecord i (fun r => { r with deadlinePasses := satAdd8 r.deadlinePasses passes }) s

/-- R14: a DAMAGED fetch. -/
def fetchDamaged (i : SlotNo) (s : State) : State :=
  let ws := (s.slot i).waiting
  raise .damaged (answerWaiters .fault .damaged .damaged ws (handOver i (s.setSlot i Slot.unused)))

/-- R54, R57: a fetch that fails for want of `n` cells. -/
def fetchShort (i : SlotNo) (n : Nat) (s : State) : State :=
  let ws := (s.slot i).waiting
  let r := evictForCells (n - s.pool.free.length) s.recency.reverse s
  handOver i (raise .cellShort (answerWaiters .retry .cellShort .cellShort ws (r.setSlot i Slot.unused)))

/-- R31: a fetch that ended OK with a valid image. -/
def fetchValid (i : SlotNo) (r : Record) (ps : List ProductEntry) (s : State) : State :=
  let x := s.slot i
  let t := freeCleanFor i ps.length s
  if ps.length ≤ t.pool.free.length then
    serve i x.waiting (foldPasses i x.passes (applyMark i (enterRecord i r ps t)))
  else fetchShort i ps.length t

/-- R31, R13: a fetch that ended OK, with its 46 words. -/
def fetchDone (i : SlotNo) (words : List Word) (s : State) : State :=
  match decodeImage (wordsBytes words) with
  | .damaged => fetchDamaged i s
  | .valid r ps => fetchValid i r ps s

/-- R32: a fetch that failed at the port. -/
def fetchFailed (i : SlotNo) (s : State) : State :=
  let ws := (s.slot i).waiting
  handOver i (answerWaiters .fault .memFault .memFault ws (s.setSlot i Slot.unused))

/-! ## The end of a write -/

/-- R36, R35: slot `i` returns to RESIDENT at the recency head, its lists and rescued cleared; after a failure it is
dirty with wb_fault. -/
def returnToResident (i : SlotNo) (ok : Bool) (s : State) : State :=
  touch i
    (s.modSlot i fun x =>
      { x with
        state := .resident, waiting := [], rescued := false, writeReqs := [], nextReqs := [],
        dirty := x.dirty || !ok, wbFault := !ok })

/-- R36: after an eviction that did not free its slot, with entries on the slot-wait list once reclaim has been tested,
a dirty victim is evicted or SLOT_SHORT raised. A slot that the write returned RESIDENT and that reclaim then frees in the
same event still counts as not freed by its eviction: the spec leaves that open, and it is the model's choice (log entry
27). -/
def seekAfterReclaim (s : State) : State :=
  let r := reclaimRun s
  if r.slotWait.isEmpty then r else seekDirtyVictim r

/-- R36, Table 2.4: the end of an eviction write. -/
def evictionDone (i : SlotNo) (ok : Bool) (s : State) : State :=
  let x := s.slot i
  if ok && !x.rescued then
    answerAll ok x.record.generation x.writeReqs (handOver i ((returnCells i s).setSlot i Slot.unused))
  else
    seekAfterReclaim
      (answerAll ok x.record.generation x.writeReqs (serve i x.waiting (returnToResident i ok s)))

/-- R35, R39: the flags and counts that the end of a flush-type write clears. -/
def clearFlush (i : SlotNo) (s : State) : State :=
  let x := s.slot i
  let r := s.modSlot i fun y => { y with writeInFlight := false, cleaner := false, writeReqs := [] }
  if x.cleaner then r.modCounts fun c => { c with cleanerWrites := c.cleanerWrites - 1 } else r

/-- R39: the requesters that waited for the next write are settled at a RESIDENT slot. -/
def settleNext (i : SlotNo) (generation : Half) (s : State) : State :=
  let x := s.slot i
  if x.nextReqs.isEmpty then s
  else if x.dirty || x.wbFault then flushWrite i x.nextReqs s
  else answerAll true generation x.nextReqs (s.modSlot i fun y => { y with nextReqs := [] })

/-- R39: the end of a flush-type write at a RESIDENT slot. -/
def flushDoneResident (i : SlotNo) (ok : Bool) (s : State) : State :=
  let x := s.slot i
  let r := (clearFlush i s).modSlot i fun y => { y with dirty := y.dirty || !ok, wbFault := !ok }
  settleNext i x.record.generation (answerAll ok x.record.generation x.writeReqs r)

/-- R35: the end of a flush-type write at a slot that is owed an eviction. -/
def flushDoneOwed (i : SlotNo) (ok : Bool) (s : State) : State :=
  let x := s.slot i
  let generation := x.record.generation
  let r := answerAll ok generation x.writeReqs (clearFlush i s)
  if ok && !x.dirty then
    if x.rescued then
      answerAll true generation x.nextReqs (serve i x.waiting (returnToResident i true r))
    else answerAll true generation x.nextReqs (handOver i (cleanEvict i r))
  else evictionWrite i x.nextReqs r

/-- R35, R39: the end of a flush-type write. -/
def flushDone (i : SlotNo) (ok : Bool) (s : State) : State :=
  if (s.slot i).state == .evicting then flushDoneOwed i ok s else flushDoneResident i ok s

/-! ## The tests at the end of an event -/

/-- R190: no tap context is in use and the Change Unit holds no block in progress. -/
def quiet (s : State) : Bool :=
  allCtxs.all (fun c => (s.ctx c).isNone) &&
    match s.change.state with
    | .idle | .suspended | .halted => true
    | .reading | .waiting | .storing => false

/-- R45: drain's course at one slot. -/
def drainSlot (i : SlotNo) (s : State) : State :=
  let x := s.slot i
  if x.state == .resident && !x.wbFault then
    if x.writeInFlight then oweEviction i .drain s
    else if x.dirty then dirtyEvict i [.drain] s
    else handOver i (cleanEvict i s)
  else s

/-- R45, R190: every RESIDENT slot is treated, in increasing slot number; the drain phase becomes EMPTYING. -/
def evictAllSlots (s : State) : State :=
  allSlots.foldl (fun s i => drainSlot i s) (s.setEngine { s.engine with phase := .emptying })

/-- R190: the condition under which Engine Control asks the cache to evict every slot. -/
def evictAllDue (s : State) : Bool := s.engine.state == .draining && s.engine.phase == .ending && quiet s

/-- R190: the test for the end of phase ENDING. -/
def evictAllTest (s : State) : State := if evictAllDue s then evictAllSlots s else s

/-- R191: while EMPTYING, a slot that stands RESIDENT without wb_fault and without a write in flight is evicted. -/
def drainEvictSlot (s : State) (i : SlotNo) : State := if (s.slot i).writeInFlight then s else drainSlot i s

/-- R191: the evictions that go on while the drain phase is EMPTYING. -/
def drainEvictions (s : State) : State :=
  if s.engine.state == .draining && s.engine.phase == .emptying then allSlots.foldl drainEvictSlot s else s

/-- R191: a WRITE-BACK is queued or in flight. -/
def writeWaiting (s : State) : Bool :=
  s.port.list.any (fun q => q.kind == .writeBack) || s.port.inFlight.any (fun o => o.request.kind == .writeBack)

/-- R191: a slot at which drain has nothing left to do. -/
def Slot.drained (x : Slot) : Bool := x.state == .free || (x.state == .resident && x.wbFault)

/-- R191: the condition of drain completion. -/
def drainDue (s : State) : Bool :=
  s.engine.state == .draining && s.engine.phase == .emptying && s.slots.toList.all Slot.drained &&
    !writeWaiting s && s.urgent.state != .busy

/-- R191: drain completes. -/
def finishDrain (s : State) : State :=
  raise .drainDone
    (s.setEngine
      { s.engine with
        state := .stopped, phase := .none,
        unflushed := slotCount (fun x => x.state == .resident && x.wbFault) s })

/-- R191: the test for drain completion. -/
def drainTest (s : State) : State := if drainDue s then finishDrain s else s

/-- The tests made at the end of an event, each on the state that the one before it leaves (log entry 4). -/
def settle (s : State) : State :=
  beginRequests (cleanerRun (drainTest (drainEvictions (evictAllTest (reclaimRun s)))))

end Sys2Proof.Machine
end

