-- ==== Sys2Proof/Machine/Change.lean ====
section
/-! DEFINITION. The Change Unit (chapter 8): its controls, the taking of a block, the requests of record commands, FLUSH
ALL, the completion of a block and the halts. -/

namespace Sys2Proof.Machine

/-! ## Reading -/

/-- R142, R143, R160: the unit becomes READING and asks for a BLOCK READ at an address. -/
def readBlock (a : Word) (s : State) : State :=
  ask (.blockRead a false) (s.modChange fun u => { u with state := .reading, blockAddr := a })

/-- R160, step 3; R145: the unit stops, the pending stop is cleared and CHG_STOPPED raised. -/
def stopUnit (x : ChangeState) (s : State) : State :=
  raise .chgStopped (s.modChange fun u => { u with state := x, stop := .none })

/-- R161, R162: the unit becomes HALTED. -/
def haltUnit (s : State) : State :=
  s.modChange fun u => { u with state := .halted, stop := .none, rereading := false }

/-! ## Controls -/

/-- R141: a control is refused. -/
def refuseControl (s : State) : State := s.modChange fun u => { u with refused := true }

/-- R141: a control is taken. -/
def takeControl (s : State) : State := s.modChange fun u => { u with refused := false }

/-- R142: START. -/
def controlStart (s : State) : State :=
  if !s.isOpen then s
  else if s.running && (s.change.state == .idle || s.change.state == .halted) then
    settle
      (readBlock (blockAligned s.change.listAddr)
        (takeControl (s.modChange fun u => { u with stop := .none, rereading := false })))
  else refuseControl s

/-- R143: RESUME. -/
def controlResume (s : State) : State :=
  if !s.isOpen then s
  else if s.running && s.change.state == .suspended then
    settle (readBlock s.change.heldLink (takeControl s))
  else if s.running && s.change.state == .idle && s.change.lastValid then
    settle (readBlock s.change.last (takeControl (s.modChange fun u => { u with rereading := true })))
  else refuseControl s

/-- The unit has a block in progress (R140, Table 8.1). -/
def ChangeUnit.busy (u : ChangeUnit) : Bool := u.state == .reading || u.state == .waiting || u.state == .storing

/-- R144: SUSPEND. -/
def controlSuspend (s : State) : State :=
  if !s.isOpen then s
  else if s.change.busy && s.change.stop != .abort then
    takeControl (s.modChange fun u => { u with stop := .suspend })
  else refuseControl s

/-- R145: the current BLOCK READ of the unit is marked as abandoned. -/
def Request.abandon : Request → Request
  | .blockRead a _ => .blockRead a true
  | q => q

/-- R145: ABORT in READING. -/
def abandonRead (s : State) : State :=
  let r := s.modPort fun p =>
    { p with
      list := p.list.map Request.abandon,
      inFlight := p.inFlight.map fun o => { o with request := o.request.abandon } }
  stopUnit .idle (r.modChange fun u => { u with abandoned := true, rereading := false })

/-- R146: ABORT in WAITING. -/
def abortWaiting (s : State) : State :=
  storeStatus .aborted 0 ((withdraw .change s).modChange fun u => { u with stop := .abort })

/-- R145, R146: ABORT. -/
def controlAbort (s : State) : State :=
  if !s.isOpen then s
  else
    match s.change.state with
    | .reading => if s.change.abandoned then refuseControl s else settle (abandonRead (takeControl s))
    | .waiting => settle (abortWaiting (takeControl s))
    | .storing => takeControl (s.modChange fun u => { u with stop := .abort })
    | .idle | .suspended | .halted => refuseControl s

/-- R141: a write to CHANGE_CTRL of a code that names no control. -/
def controlUnknown (s : State) : State := if s.isOpen then refuseControl s else s

/-- R141, Table 12.7: a write to CHANGE_CTRL. -/
def writeChangeCtrl (v : Word) (s : State) : State :=
  if v = 1 then controlStart s
  else if v = 2 then controlResume s
  else if v = 3 then controlSuspend s
  else if v = 4 then controlAbort s
  else controlUnknown s

/-! ## The commands of a block -/

/-- R158: the slots that a FLUSH ALL covers. -/
def Slot.flushAllCovers (x : Slot) : Bool := x.state == .resident && (x.dirty || x.wbFault)

/-- R158: FLUSH ALL. -/
def runFlushAll (s : State) : State :=
  let covered := allSlots.filter fun i => (s.slot i).flushAllCovers
  match covered with
  | [] => storeStatus .ok 0 s
  | _ :: _ =>
    (covered.foldl (fun s i => placeFlush i .flushAll s) s).modChange fun u =>
      { u with state := .storing, outstanding := covered.length, failures := 0 }

/-- R148, R149, R21: a record command asks the cache for its key. -/
def requestRecord (c : ChangeCommand) (s : State) : State :=
  let k := keyOf s.engine.keyShape s.change.block.ident
  let r := s.modChange fun u => { u with key := k }
  match findSlot k r with
  | some i =>
    if (r.slot i).state == .resident then applyCommand c i r
    else joinWaiting i .change (r.modChange fun u => { u with state := .waiting })
  | none => miss k .change (r.modChange fun u => { u with state := .waiting })

/-- R148: the status and result of a tariff or range command are stored. -/
def storeTariff (r : State × Status × Word) : State := storeStatus r.2.1 r.2.2 r.1

/-- R148: a block that passed the checks of R147 is applied according to its command. -/
def runCommand (c : ChangeCommand) (s : State) : State :=
  match c with
  | .nop => storeStatus .ok 0 s
  | .loadClass => storeTariff (loadClass s.change.block s)
  | .loadFares => storeTariff (loadFares s.change.block s)
  | .copyActive => storeTariff (copyActive s)
  | .switchTariff => storeTariff (switchTariff s)
  | .setRange => storeTariff (setRange s.change.block s)
  | .flushAll => runFlushAll s
  | .enroll | .amend | .adjust | .addProduct | .removeProduct | .block | .unblock | .retire | .flush =>
    requestRecord c s

/-- R147: the unit takes the block and stores its link as the held link. -/
def holdBlock (b : Block) (s : State) : State := s.modChange fun u => { u with block := b, heldLink := b.link }

/-- R60, R61: an operation in flight that the given last word ends OK: the operation as it then stands. -/
def readEnds (i : Nat) (w : Word) (p : BitVec 4) (s : State) : Option Op :=
  match s.op i with
  | none => none
  | some o =>
    match o.respond (.data w p) with
    | some (o', some .ok) => some o'
    | _ => none

/-- R66, R147: the operation at a place is the unit's current BLOCK READ, which the given last word ends OK; the unit is
READING, for a block (`again` false) or for the read again of a RESUME. -/
def blockArrives (again : Bool) (i : Nat) (w : Word) (p : BitVec 4) (s : State) : Option Op :=
  match readEnds i w p s with
  | none => none
  | some o =>
    match o.request with
    | .blockRead _ false => if s.change.state == .reading && s.change.rereading == again then some o else none
    | _ => none

/-- R147, R148: the event at which a BLOCK READ ends OK with a block whose command passes the checks and is the given
one. -/
def blockCommand (c : ChangeCommand) (i : Nat) (w : Word) (p : BitVec 4) (s : State) : State :=
  match blockArrives false i w p s with
  | none => s
  | some o =>
    match checkBlock (parseBlock o.words) with
    | .ok d => if d = c then settle (runCommand c (holdBlock (parseBlock o.words) (endOp i o .ok s))) else s
    | .error _ => s

/-- R147: the event at which a BLOCK READ ends OK with a block that fails the checks. -/
def blockRefused (i : Nat) (w : Word) (p : BitVec 4) (s : State) : State :=
  match blockArrives false i w p s with
  | none => s
  | some o =>
    match checkBlock (parseBlock o.words) with
    | .ok _ => s
    | .error st => settle (storeStatus st 0 (holdBlock (parseBlock o.words) (endOp i o .ok s)))

/-- R143: the end of the read again of a RESUME: a block boundary that holds the link just read (log entry 12). -/
def followLink (s : State) : State :=
  match s.change.stop with
  | .none => readBlock s.change.heldLink s
  | .suspend => stopUnit .suspended s
  | .abort => stopUnit .idle s

/-- R143: the event at which the read again of a RESUME ends OK. -/
def rereadDone (i : Nat) (w : Word) (p : BitVec 4) (s : State) : State :=
  match blockArrives true i w p s with
  | none => s
  | some o =>
    let r := (endOp i o .ok s).modChange fun u =>
      { u with heldLink := (parseBlock o.words).link, rereading := false }
    settle (followLink r)

/-! ## Endings of the unit's own operations -/

/-- R161, R145: the end of a BLOCK READ that is not a taken block. -/
def blockReadEnds (abandoned : Bool) (s : State) : State :=
  if abandoned then s.modChange fun u => { u with abandoned := false } else haltUnit s

/-- R160: the unit's next state at a block's completion. -/
def nextBlock (s : State) : State :=
  let b := s.change.block
  match s.change.stop with
  | .abort => stopUnit .idle s
  | .suspend => if b.flagE then stopUnit .idle s else stopUnit .suspended s
  | .none =>
    if b.flagE then stopUnit .idle s
    else if b.flagS then stopUnit .suspended s
    else readBlock s.change.heldLink s

/-- R160: a block is complete. -/
def completeBlock (s : State) : State :=
  let r := s.modChange fun u => { u with last := u.blockAddr, lastValid := true }
  nextBlock (if s.change.block.flagI then signalChgDone r else r)

/-- R144: the engine's entry into DRAINING sets the pending stop. -/
def drainStop (s : State) : State :=
  if s.change.busy && s.change.stop == .none then s.modChange fun u => { u with stop := .suspend } else s

end Sys2Proof.Machine
end

