-- ==== Sys2Proof/Machine/Lines.lean ====
section
/-! DEFINITION. The gate lines (chapter 5) and the arrival of a tap (R96 to R102): frames, the judgement of a TAP, replies,
the verdict deadline, configuration, and withdrawal. -/

namespace Sys2Proof.Machine

/-! ## Arrival -/

/-- R96: the free tap context with the lowest number. -/
def freeContext (s : State) : Option CtxNo := allCtxs.find? fun c => (s.ctx c).isNone

/-- R102: a tap that no arrival test answers reaches the cache; a tap that waits keeps its context. -/
def askCache (c : CtxNo) (x : TapContext) (s : State) : State :=
  match findSlot x.key s with
  | some i =>
    if (s.slot i).state == .resident then resolveAt i x s
    else joinWaiting i (.tap c) ((s.setCtx c (some x)).modLine x.line fun l => { l with ctx := some c })
  | none => miss x.key (.tap c) ((s.setCtx c (some x)).modLine x.line fun l => { l with ctx := some c })

/-- R101: the block mark test, then R102. -/
def testMarks (c : CtxNo) (x : TapContext) (s : State) : State :=
  if markedIdent x.ident s then deliver x.line (plainVerdict x.sequence .refuse .blocked s) s
  else askCache c x s

/-- R100: the winning range rule acts on the tap. -/
def arrive (c : CtxNo) (x : TapContext) (s : State) : State :=
  match winningRule x.ident s with
  | none => testMarks c x s
  | some n =>
    let r := s.ranges.get n
    match r.action with
    | .deny => deliver x.line (plainVerdict x.sequence .refuse .rangeDeny s) s
    | .cls => testMarks c { x with mark := .cls r.cls } s
    | .watch => testMarks c { x with mark := .watch } (watchWin x.line x.ident n s)

/-- R96, R83: the context of a tap, its key formed under the Key Shape in force (R102). -/
def tapContext (n : LineNo) (sequence : Byte) (d : Direction) (x : Ident) (s : State) : TapContext :=
  { line := n, sequence := sequence, direction := d, ident := x, key := keyOf s.engine.keyShape x,
    group := (s.line n).config.group, mark := .none, arrival := s.clock.timeBase, awaitRecord := false }

/-! ## The judgement of a TAP -/

/-- R79: the verdict held is a FRAME_ERROR verdict. -/
def Line.holdsFrameError (l : Line) : Bool :=
  match l.verdict with
  | some v => v.reason == .frameError
  | none => false

/-- R82, R94: an overrun is counted, flagged and raised. -/
def overrun (n : LineNo) (s : State) : State :=
  flagLineEvent n (s.modLine n fun l => { l with overruns := satInc16 l.overruns })

/-- The line holds a verdict and becomes READY. -/
def holdVerdict (n : LineNo) (v : Verdict) (s : State) : State :=
  s.modLine n fun l => { l with verdict := some v, state := .ready }

/-- R93: one frame error counted. -/
def countFrameError (n : LineNo) (s : State) : State :=
  s.modLine n fun l => { l with frameErrors := satInc16 l.frameErrors }

/-- R79: a FRAME_ERROR verdict is held, and its sequence becomes the last sequence. -/
def holdFrameError (n : LineNo) (sequence : Byte) (s : State) : State :=
  (holdVerdict n (plainVerdict sequence .refuse .frameError s) s).modLine n fun l => { l with lastSeq := some sequence }

/-- R82, R79: an unread verdict made from a tap is discarded as an overrun. -/
def discardUnread (n : LineNo) (s : State) : State :=
  if (s.line n).state == .ready && !(s.line n).holdsFrameError then overrun n s else s

/-- R79: a bad TAP. -/
def badTap (n : LineNo) (sequence : Byte) (s : State) : State :=
  let r := countFrameError n s
  if (s.line n).state == .inFlight then r else holdFrameError n sequence (discardUnread n r)

/-- R80: a good TAP is an echo. -/
def Line.isEcho (l : Line) (sequence : Byte) : Bool := l.lastSeq == some sequence && !l.holdsFrameError

/-- R80: an echo returns a TAKEN line to READY and is otherwise ignored. -/
def echo (n : LineNo) (s : State) : State :=
  s.modLine n fun l => if l.state = .taken then { l with state := .ready } else l

/-- R83: a BUSY verdict is held and counted. -/
def answerBusy (n : LineNo) (sequence : Byte) (why : Reason) (s : State) : State :=
  (holdVerdict n (plainVerdict sequence .busy why s) s).modLine n fun l => { l with busy := satInc16 l.busy }

/-- R88: a line's deadline timer as it starts. -/
def deadlineTimer (n : LineNo) (s : State) : Timer :=
  { start := s.clock.timeBase, duration := 10 * (s.line n).config.deadline.toNat }

/-- R83: a good TAP is taken. -/
def takeTap (n : LineNo) (sequence : Byte) (d : Direction) (x : Ident) (s : State) : State :=
  let r := s.modLine n fun l =>
    { l with verdict := none, lastSeq := some sequence, tapsTaken := satInc16 l.tapsTaken }
  if !s.running then answerBusy n sequence .engineNotRunning r
  else
    match freeContext r with
    | none => answerBusy n sequence .noContext r
    | some c =>
      arrive c (tapContext n sequence d x r)
        (r.modLine n fun l => { l with state := .inFlight, timer := some (deadlineTimer n r) })

/-- R80 to R83: a good TAP. -/
def goodTap (n : LineNo) (sequence : Byte) (d : Direction) (x : Ident) (s : State) : State :=
  let l := s.line n
  if l.isEcho sequence then echo n s
  else if l.state == .inFlight then overrun n s
  else takeTap n sequence d x (discardUnread n s)

/-- R79: the direction of a TAP that is not bad. -/
def tapDirection (sequence direction : Byte) (issuer : BitVec 16) (serial : BitVec 40) (check : Byte) :
    Option Direction :=
  if check = xorBytes (tapBytes sequence direction issuer serial) then directionOf direction else none

/-- R78 to R83: a complete TAP is judged at the rise of select. -/
def judgeTap (n : LineNo) (sequence direction : Byte) (issuer : BitVec 16) (serial : BitVec 40) (check : Byte)
    (s : State) : State :=
  match tapDirection sequence direction issuer serial check with
  | none => badTap n sequence s
  | some d => settle (goodTap n sequence d (mkIdent issuer serial) s)

/-! ## Frames -/

/-- The wire of a line after an event. -/
def setFrame (n : LineNo) (f : Frame) (s : State) : State := s.modLine n fun l => { l with frame := f }

/-- R76, R75: select falls; a DISABLED line receives nothing of the frame. -/
def fallSelect (n : LineNo) (s : State) : State :=
  match (s.line n).frame with
  | .quiet => setFrame n (if (s.line n).state = .disabled then .ignored else .receiving) s
  | .ignored | .receiving | .replying _ _ _ => s

/-- R77, R78: select rises after a frame whose opcode fixed no reply; what the line makes of it is `f`. On a quiet line the
command stands for the whole frame (log entry 5). -/
def riseSelect (n : LineNo) (f : State → State) (s : State) : State :=
  match (s.line n).frame with
  | .replying _ _ _ => s
  | .ignored => setFrame n .quiet s
  | .quiet | .receiving => if (s.line n).state = .disabled then setFrame n .quiet s else f (setFrame n .quiet s)

/-- R77: a cut-short frame, whatever its kind. -/
def cutShort (n : LineNo) (s : State) : State :=
  match (s.line n).frame with
  | .replying _ _ _ => countFrameError n (setFrame n .quiet s)
  | .quiet | .ignored | .receiving => riseSelect n (countFrameError n) s

/-- R85, R86: the reply carries the held verdict. -/
def Line.carries (l : Line) (isRepeat : Bool) : Bool :=
  match l.state with
  | .ready => true
  | .taken => isRepeat
  | .disabled | .idle | .inFlight => false

/-- R87, section 12.3: the line state field of the line status byte. -/
def LineState.replyCode : LineState → Nat
  | .disabled => 0
  | .idle => 0
  | .inFlight => 1
  | .ready => 2
  | .taken => 3

/-- R87: the line status byte. -/
def lineStatusByte (l : Line) (isRepeat running : Bool) : Byte :=
  BitVec.ofNat 8 (l.state.replyCode + (if l.carries isRepeat then 4 else 0) + (if running then 8 else 0))

/-- R85: the verdict record of a reply. -/
def replyRecord (l : Line) (isRepeat : Bool) : List Byte :=
  match l.carries isRepeat, l.verdict with
  | true, some v => encodeVerdict v
  | _, _ => noVerdict

/-- R85, R86: the sixteen reply bytes. -/
def replyBytes (l : Line) (isRepeat running : Bool) : List Byte :=
  lineStatusByte l isRepeat running :: replyRecord l isRepeat

/-- R85, R86: the opcode of a POLL or REPEAT completes and fixes the reply. -/
def fixReply (isRepeat : Bool) (n : LineNo) (s : State) : State :=
  let l := s.line n
  match l.frame with
  | .quiet | .receiving =>
    if l.state = .disabled then setFrame n .ignored s
    else setFrame n (.replying isRepeat (replyBytes l isRepeat s.running) (l.carries isRepeat)) s
  | .ignored | .replying _ _ _ => s

/-- R85, R86: a complete POLL or REPEAT whose reply carried the held verdict moves a READY line to TAKEN. -/
def verdictRead (n : LineNo) (carried : Bool) (s : State) : State :=
  s.modLine n fun l => if l.state = .ready ∧ carried = true then { l with state := .taken } else l

/-- R85, R86: a complete POLL or REPEAT, at the rise of select. -/
def finishReply (isRepeat : Bool) (n : LineNo) (s : State) : State :=
  match (s.line n).frame with
  | .replying k _ carried => if k == isRepeat then verdictRead n carried (setFrame n .quiet s) else s
  | .quiet | .ignored | .receiving => riseSelect n (fun r => verdictRead n ((r.line n).carries isRepeat) r) s

/-- R76, R78: what the device drives on data out of a line during byte `k` of a frame, the opcode being byte 0: the reply
bytes after the opcode of a POLL or REPEAT, 00h in every other byte while select is low on an enabled line, or nothing. R76
gives 00h for the opcode byte, the bytes of a TAP and those beyond a reply; that a frame of unknown opcode, after its
opcode, and a frame ignored on an enabled line (R75) drive 00h too is the model's choice (log entry 28). -/
def lineDrives (n : LineNo) (k : Nat) (s : State) : Option Byte :=
  let l := s.line n
  if l.state = .disabled then none
  else
    match l.frame with
    | .quiet => none
    | .ignored | .receiving => some 0
    | .replying _ reply _ => some (if k = 0 then 0 else byteAt reply (k - 1))

/-- R76: the level of data out of a line, when it is driven, after the given levels of the gate's wires since the fall of
select: the first bit of the first byte until the clock first falls, the next bit from each falling edge on. -/
def dataOut (n : LineNo) (wave : List LineSample) (s : State) : Option Bool :=
  let placed := fallingEdges false wave
  (lineDrives n (placed / 8) s).map fun b => wireBit b (placed % 8)

/-! ## Withdrawal, deadline, configuration -/

/-- R98: the context of a line's tap in flight is removed from the list that holds it and freed. -/
def withdrawTap (n : LineNo) (s : State) : State :=
  match (s.line n).ctx with
  | none => s
  | some c => (withdraw (.tap c) s).setCtx c none

/-- R178, R88: the deadline timer of an IN_FLIGHT line has run out. -/
def deadlineDue (n : LineNo) (s : State) : Bool :=
  (s.line n).state == .inFlight &&
    match (s.line n).timer with
    | some t => t.duration ≤ elapsedMs s t.start
    | none => false

/-- R90: the reason of a deadline verdict. -/
def deadlineReason (n : LineNo) (s : State) : Reason :=
  match ((s.line n).ctx).bind s.ctx with
  | some x => if x.awaitRecord then .none else .slotShort
  | none => .none

/-- R90: the deadline verdict. -/
def deadlineVerdict (n : LineNo) (s : State) : Verdict :=
  plainVerdict ((s.line n).lastSeq.getD 0) (if (s.line n).config.accept then .deadlineAccept else .deadlineRefuse)
    (deadlineReason n s) s

/-- R90, R26: a DEADLINE_ACCEPT adds a pending deadline pass at a FETCHING slot. -/
def passForDeadline (n : LineNo) (s : State) : State :=
  match (s.line n).ctx with
  | some c => if (s.line n).config.accept then addPass (.tap c) s else s
  | none => s

/-- R88: the deadline expires. -/
def expireDeadline (n : LineNo) (s : State) : State :=
  let v := deadlineVerdict n s
  let r := (withdrawTap n (passForDeadline n s)).modLine n fun l =>
    { l with
      state := .ready, ctx := none, verdict := some v, timer := none, deadlines := satInc16 l.deadlines }
  if (s.line n).config.accept then raise .deadlinePass r else r

/-- DEADLINE_EXPIRY (R88): the expiry, when it is due. -/
def deadlineEvent (n : LineNo) (s : State) : State := if deadlineDue n s then settle (expireDeadline n s) else s

/-- R91: a line is disabled. -/
def disableLine (n : LineNo) (s : State) : State :=
  (withdrawTap n s).modLine n fun l =>
    { l with
      state := .disabled, ctx := none, verdict := none, lastSeq := none, timer := none,
      frame := if l.frame = .quiet then .quiet else .ignored }

/-- R75, R91: what a write of the enabled field does to the line. -/
def applyEnabled (n : LineNo) (enabled : Bool) (s : State) : State :=
  if (s.line n).state = .disabled then
    if enabled then s.modLine n fun l => { l with state := .idle } else s
  else if enabled then s
  else settle (disableLine n s)

/-- R72: a host write to LINE_CONFIG, taken whole or ignored whole. -/
def writeConfig (n : LineNo) (v : Word) (s : State) : State :=
  if s.isOpen then
    match configOf v with
    | none => s
    | some c => applyEnabled n c.enabled (s.modLine n fun l => { l with config := c })
  else s

/-- R74, R78: every line's reset; a frame being received is abandoned. -/
def resetLines (s : State) : State :=
  (s.setLines (s.lines.map fun l => Line.reset (if l.frame = .quiet then .quiet else .ignored))).setLineEvents 0

/-- R99: every tap context is freed by a reset. -/
def resetTaps (s : State) : State := s.setTaps (Vector.replicate 12 none)

end Sys2Proof.Machine
end

