-- ==== Sys2Proof/Machine/Urgent.lean ====
section
/-! DEFINITION. The Urgent Command Unit (chapter 9): the taking of commands, BLOCK and UNMARK on the Block Mark Table, PEEK,
FLUSH and RETRY-WRITE. -/

namespace Sys2Proof.Machine

/-- The numbers of the Block Mark Table's entries, in increasing order (R169). -/
def allMarks : List (Fin 16) := List.finRange 16

/-- The number of marks as a command's value (Table 9.2). -/
def markValue (s : State) : Half := BitVec.ofNat 16 (markCount s)

/-- R169: a mark is entered in the free entry with the lowest number. -/
def enterMark (x : Ident) (s : State) : State :=
  match allMarks.find? fun m => (s.marks.get m).isNone with
  | some m => s.setMarks (s.marks.set m.val (some x) m.isLt)
  | none => s

/-- R167: the RESIDENT slot of an identifier's key whose record is that card's own. -/
def ownResident (x : Ident) (s : State) : Option SlotNo :=
  (findResident (keyOf s.engine.keyShape x) s).filter fun i =>
    (s.slot i).record.state != .empty && (s.slot i).record.ident == x

/-- R167: BLOCK, where no record of the card is resident: the Block Mark Table. -/
def blockByMark (x : Ident) (s : State) : State :=
  if markedIdent x s then finishUrgent .already (markValue s) s
  else if 16 ≤ markCount s then finishUrgent .full 16 s
  else
    let r := enterMark x s
    finishUrgent .marked (markValue r) r

/-- R167: BLOCK. -/
def runBlock (s : State) : State :=
  let x := s.urgent.taken
  match ownResident x s with
  | some i => finishUrgent .applied (markValue s) (touch i (amendRecord i (fun r => { r with state := .blocked }) s))
  | none => blockByMark x s

/-- R168: UNMARK. -/
def runUnmark (s : State) : State :=
  let x := s.urgent.taken
  if markedIdent x s then
    let r := removeMark x s
    finishUrgent .removed (markValue r) r
  else finishUrgent .absent (markValue s) s

/-- R165: the account key that PEEK, FLUSH and RETRY-WRITE take from the argument. -/
def urgentKey (s : State) : Key := s.urgent.taken.truncate 16

/-- R171: the Peek Window's copy of slot `i`. -/
def peekOf (i : SlotNo) (s : State) : PeekWindow :=
  let x := s.slot i
  { valid := true, key := x.key, slot := i, dirty := x.dirty, writeInFlight := x.writeInFlight, wbFault := x.wbFault,
    record := x.record, products := s.products i }

/-- R171: PEEK. -/
def runPeek (s : State) : State :=
  match findResident (urgentKey s) s with
  | some i => finishUrgent .ok (urgentKey s) (s.setPeek (peekOf i s))
  | none => finishUrgent .notResident (urgentKey s) (s.setPeek (PeekWindow.cleared (urgentKey s)))

/-- R172: FLUSH. -/
def runFlush (s : State) : State :=
  match findResident (urgentKey s) s with
  | none => finishUrgent .notResident 0 s
  | some i =>
    if (s.slot i).nothingToWrite then finishUrgent .clean (s.slot i).record.generation s
    else placeFlush i .urgent s

/-- R173: RETRY-WRITE. -/
def runRetry (s : State) : State :=
  match findResident (urgentKey s) s with
  | none => finishUrgent .notResident 0 s
  | some i => if (s.slot i).wbFault then placeFlush i .urgent s else finishUrgent .notFaulted 0 s

/-- R166: a command is taken: the argument is copied and the unit is BUSY. -/
def takeUrgent (code : Word) (s : State) : State :=
  s.modUrgent fun u =>
    { u with state := .busy, command := some code, result := .none, value := 0, lost := false, taken := u.arg }

/-- R166: a command written while the unit is BUSY is lost. -/
def loseUrgent (s : State) : State := s.modUrgent fun u => { u with lost := true }

/-- R166: a command is given: ignored in HELD and INITIALIZING, lost while BUSY, else taken and carried out. -/
def giveUrgent (code : Word) (run : State → State) (s : State) : State :=
  if !s.isOpen then s
  else if s.urgent.state == .busy then loseUrgent s
  else run (takeUrgent code s)

/-- R167: the command BLOCK. -/
def urgentBlockCmd (s : State) : State := giveUrgent 1 (fun t => settle (runBlock t)) s

/-- R168: the command UNMARK. -/
def unmarkCmd (s : State) : State := giveUrgent 2 runUnmark s

/-- R171: the command PEEK. -/
def peekCmd (s : State) : State := giveUrgent 3 runPeek s

/-- R172: the command FLUSH. -/
def urgentFlushCmd (s : State) : State := giveUrgent 4 (fun t => settle (runFlush t)) s

/-- R173: the command RETRY-WRITE. -/
def retryWriteCmd (s : State) : State := giveUrgent 5 (fun t => settle (runRetry t)) s

/-- R166: a code that names no command. -/
def unknownUrgentCmd (code : Word) (s : State) : State := giveUrgent code (finishUrgent .badCommand 0) s

/-- R166, Table 12.7: a write to URGENT_CMD. -/
def writeUrgentCmd (v : Word) (s : State) : State :=
  if v = 1 then urgentBlockCmd s
  else if v = 2 then unmarkCmd s
  else if v = 3 then peekCmd s
  else if v = 4 then urgentFlushCmd s
  else if v = 5 then retryWriteCmd s
  else unknownUrgentCmd v s

end Sys2Proof.Machine
end

