-- ==== Sys2Proof/Machine/Engine.lean ====
section
/-! DEFINITION. Engine Control (chapter 11): the resets, the engine's controls, initialisation, KEY_SHAPE and HOME_BASE; and
the Station Clock (R175 to R178). -/

namespace Sys2Proof.Machine

/-! ## The Station Clock -/

/-- R176: a host write to STATION_CLOCK. -/
def writeClock (v : Word) (s : State) : State := s.setClock { s.clock with seconds := v, phase := 0 }

/-- R175, R177: the seconds count advances, the phase becomes 0, and DAY_ROLL is raised when the day number changes. -/
def advanceSecond (s : State) : State :=
  let next := s.clock.seconds + 1
  let r := s.setClock { s.clock with seconds := next, phase := 0 }
  if next.toNat / 86400 = s.clock.seconds.toNat / 86400 then r else raise .dayRoll r

/-- R178: the millisecond time base rises by one. -/
def tickTimeBase (s : State) : State := s.setClock { s.clock with timeBase := s.clock.timeBase + 1 }

/-- R175, R178: one millisecond passes. -/
def passMillisecond (s : State) : State :=
  if 999 ≤ s.clock.phase then advanceSecond (tickTimeBase s)
  else
    let r := tickTimeBase s
    r.setClock { r.clock with phase := r.clock.phase + 1 }

/-! ## Resets -/

/-- R187: what power-on and HOLD do to every block but the clock; each block's own rule gives its values. -/
def resetBlocks (s : State) : State :=
  let r := resetPort (resetTariff (resetLines (resetTaps (resetPool (resetCache s)))))
  (((((((r.setEngine Engine.reset).setAttn Attention.reset).setChange ChangeUnit.reset).setUrgent
    Urgent.reset).setMarks (Vector.replicate 16 none)).setPeek (PeekWindow.cleared 0)).setCopies RegCopies.reset)

/-- R187: HOLD, in any engine state. -/
def controlHold (s : State) : State := resetBlocks s

/-- R187, R175, R178: power-on also sets the Station Clock and the time base to 0 (log entries 15 and 19). -/
def powerUp (s : State) : State :=
  ((resetBlocks s).setClock { seconds := 0, phase := 0, timeBase := 0 }).setSlave 0

/-! ## Controls -/

/-- R188: RELEASE. -/
def controlRelease (s : State) : State :=
  if s.engine.state = .held then s.setEngine { s.engine with state := .initializing } else s

/-- R188, R49: initialisation ends. -/
def initialise (s : State) : State :=
  let r := (((rebuildPool s).setSlots (Vector.replicate 256 Slot.unused)).setRecency []).setSlotWait []
  (resetTaps r).setEngine { s.engine with state := .stopped }

/-- INITIALISATION_COMPLETE (R188). -/
def initialisationEvent (s : State) : State := if s.engine.state = .initializing then initialise s else s

/-- R189: RUN. -/
def controlRun (s : State) : State :=
  if s.engine.state = .stopped then settle (s.setEngine { s.engine with state := .running }) else s

/-- R190: the engine enters DRAINING, in phase ENDING. -/
def enterDraining (s : State) : State :=
  drainStop (s.setEngine { s.engine with state := .draining, phase := .ending })

/-- R190: STOP. -/
def controlStop (s : State) : State := if s.engine.state = .running then settle (enterDraining s) else s

/-- R186, Table 12.7: a write to ENGINE_CTRL. -/
def writeEngineCtrl (v : Word) (s : State) : State :=
  if v = 1 then controlHold s
  else if v = 2 then controlRelease s
  else if v = 3 then controlRun s
  else if v = 4 then controlStop s
  else s

/-- R11: every slot is FREE. -/
def allFree (s : State) : Bool := s.slots.toList.all fun x => x.state == .free

/-- R11: a host write to KEY_SHAPE. Which Key Shape a value above 8 leaves is not stated (log entry 9). -/
def writeKeyShape (v : Word) (s : State) : State :=
  if s.engine.state = .stopped ∧ allFree s = true then
    if h : v.toNat < 9 then s.setEngine { s.engine with keyShape := ⟨v.toNat, h⟩ }
    else
      (s.setEngine { s.engine with keyShape := Config.keyShapeBeyond s.freeIndex v }).setFreeIndex (s.freeIndex + 1)
  else s

/-- R12: a host write to HOME_BASE. -/
def writeHomeBase (v : Word) (s : State) : State :=
  if s.engine.state = .stopped ∧ v.extractLsb' 0 24 = 0 then s.setEngine { s.engine with homeBase := v } else s

/-! ## The ends of operations and the passing of time -/

/-- An operation ended with an outcome and the words it read: the requester's rule acts in the same event (R66). -/
def deliverEnd (o : Op) (ok : Bool) (s : State) : State :=
  match o.request with
  | .fetch i _ _ => if ok then fetchDone i o.words s else fetchFailed i s
  | .writeBack i _ _ _ =>
    if (s.slot i).writeInFlight then flushDone i ok s else evictionDone i ok s
  | .blockRead _ abandoned => blockReadEnds abandoned s
  | .statusWrite _ _ _ => if ok then completeBlock s else haltUnit s

/-- PORT_TIMEOUT (R64): the response timer of the operation at place `i` runs out. -/
def portTimeoutEvent (i : Nat) (s : State) : State :=
  match s.op i with
  | none => s
  | some o => if o.timedOut s then settle (deliverEnd o false (endOp i o .timeout s)) else s

/-- COALESCE_WINDOW_EXPIRY (R183). -/
def windowEvent (s : State) : State := if windowDue s then expireWindow s else s

/-- R64: the oldest operation in flight ends when its timer has run out. -/
def oldestTimeout (s : State) : State := portTimeoutEvent 0 s

/-- The timers that have run out and whose expiry is not yet commanded, in a fixed order (log entry 2). -/
def dueEvents (s : State) : State :=
  windowEvent (allLines.foldl (fun s n => deadlineEvent n s) (iterate oldestTimeout 4 s))

/-- The next millisecond passes, after the expiries that are due, so that no timer outlives its duration (R178). -/
def nextMillisecond (s : State) : State := passMillisecond (dueEvents s)

/-- What the block does when no command waits: the next millisecond passes (log entry 1), and an initialisation that was
under way, which takes less than one (R188), has ended by then (log entry 20). -/
def idleTick (s : State) : State := initialisationEvent (nextMillisecond s)

/-- CLOCK_ADVANCE (R175): the millisecond at which the phase would reach 1000 passes, in any engine state (log entry 23). -/
def clockAdvanceEvent (s : State) : State := if s.clock.phase = 999 then nextMillisecond s else s

end Sys2Proof.Machine
end

