-- ==== Sys2Proof/Machine/Window.lean ====
section
/-! DEFINITION. The register window (section 12.4): what each register shows (R196, Tables 12.7 and 12.8), the copies of
the multi-word registers (R197), and what a host write to each register does. -/

namespace Sys2Proof.Machine

/-! ## Codes -/

/-- Table 12.8. -/
def EngineState.code : EngineState → Nat
  | .held => 0
  | .initializing => 1
  | .stopped => 2
  | .running => 3
  | .draining => 4

/-- Table 12.8. -/
def DrainPhase.code : DrainPhase → Nat
  | .none => 0
  | .ending => 1
  | .emptying => 2

/-- Table 12.8. -/
def ChangeState.code : ChangeState → Nat
  | .idle => 0
  | .reading => 1
  | .waiting => 2
  | .storing => 3
  | .suspended => 4
  | .halted => 5

/-- Table 12.8. -/
def PendingStop.code : PendingStop → Nat
  | .none => 0
  | .suspend => 1
  | .abort => 2

/-- Table 12.8. -/
def UrgentState.code : UrgentState → Nat
  | .idle => 0
  | .busy => 1
  | .done => 2

/-- Table 12.7. -/
def UrgentResult.code : UrgentResult → Nat
  | .none => 0
  | .applied => 1
  | .marked => 2
  | .already => 3
  | .full => 4
  | .removed => 5
  | .absent => 6
  | .ok => 7
  | .notResident => 8
  | .memFault => 9
  | .clean => 10
  | .notFaulted => 11
  | .badCommand => 12

/-- Table 12.7. -/
def OpKind.code : OpKind → Nat
  | .fetch => 1
  | .writeBack => 2
  | .blockRead => 3
  | .statusWrite => 4

/-- Table 12.7. -/
def OpOutcome.code : OpOutcome → Nat
  | .ok => 0
  | .busError => 1
  | .parity => 2
  | .timeout => 3

/-- Table 12.8. -/
def RangeAction.code : RangeAction → Nat
  | .deny => 0
  | .cls => 1
  | .watch => 2

/-- Table 12.8. -/
def LineState.code : LineState → Nat
  | .disabled => 0
  | .idle => 1
  | .inFlight => 2
  | .ready => 3
  | .taken => 4

/-- Table 12.7. -/
def Mode.code : Mode → Nat
  | .entry => 1
  | .exit => 2
  | .both => 3

/-- A field of `n` at bit `pos`. -/
def field (n pos : Nat) : Nat := n * 2 ^ pos

/-- A one-bit field at bit `pos`. -/
def flag (b : Bool) (pos : Nat) : Nat := if b then 2 ^ pos else 0

/-! ## ATTN_COALESCE (R184, log entry 10) -/

/-- A number placed in a field of a word. -/
def putField (f : Config.Field) (n : Nat) : Word := BitVec.ofNat 32 (n % 2 ^ f.width) <<< f.pos

/-- The number that a field of a word holds. -/
def takeField (f : Config.Field) (w : Word) : Nat := (w >>> f.pos).toNat % 2 ^ f.width

/-- A field stands inside the word and can hold every number below `2 ^ bits`. -/
def fieldFits (f : Config.Field) (bits : Nat) : Bool := bits ≤ f.width && f.pos + f.width ≤ 32

/-- Two fields share no bit. -/
def apart (f g : Config.Field) : Bool := f.pos + f.width ≤ g.pos || g.pos + g.width ≤ f.pos

/-- A layout that can hold a threshold up to 8, a window up to 1023, a state and a count up to 7 side by side. -/
def layoutSound (l : Config.CoalesceLayout) : Bool :=
  fieldFits l.threshold 4 && fieldFits l.window 10 && fieldFits l.state 1 && fieldFits l.count 3 &&
    apart l.threshold l.window && apart l.threshold l.state && apart l.threshold l.count && apart l.window l.state &&
    apart l.window l.count && apart l.state l.count

/-- The layout in force: the free one; the one written out stands only for a free one that is no layout (log entry 10),
so that every layout that can hold the fields, and no other, is possible. -/
def coalesceLayout : Config.CoalesceLayout :=
  if layoutSound Config.coalesceLayout then Config.coalesceLayout
  else
    { threshold := { pos := 0, width := 4 }, window := { pos := 4, width := 10 }, state := { pos := 14, width := 1 },
      count := { pos := 15, width := 3 }, holdingIsOne := true }

/-- R184: the threshold in a word of ATTN_COALESCE. -/
def coalesceThreshold (w : Word) : Nat := takeField coalesceLayout.threshold w

/-- R184: the window in a word of ATTN_COALESCE. -/
def coalesceWindow (w : Word) : Nat := takeField coalesceLayout.window w

/-- R184: the coalescing state in a word of ATTN_COALESCE: HOLDING or not. -/
def coalesceHolding (w : Word) : Bool := (takeField coalesceLayout.state w == 1) == coalesceLayout.holdingIsOne

/-- R184: the count held in a word of ATTN_COALESCE. -/
def coalesceCount (w : Word) : Nat := takeField coalesceLayout.count w

/-- R184: the word that a read of ATTN_COALESCE shows. -/
def coalesceWord (a : Attention) : Word :=
  putField coalesceLayout.threshold a.threshold ||| putField coalesceLayout.window a.window |||
    putField coalesceLayout.state (if a.holding = coalesceLayout.holdingIsOne then 1 else 0) |||
    putField coalesceLayout.count a.count

/-! ## The words of single registers (Table 12.8) -/

/-- ENGINE_STATE. -/
def engineStateWord (e : Engine) : Word :=
  BitVec.ofNat 32
    (e.state.code + flag (e.state == .stopped) 4 + field e.phase.code 8 + field e.unflushed 16)

/-- CHANGE_STATE. -/
def changeStateWord (u : ChangeUnit) : Word :=
  BitVec.ofNat 32 (u.state.code + field u.stop.code 4 + flag u.abandoned 8 + flag u.refused 9)

/-- CHANGE_LAST. -/
def changeLastWord (u : ChangeUnit) : Word := blockAligned u.last ||| BitVec.ofNat 32 (flag u.lastValid 0)

/-- URGENT_STATUS. -/
def urgentStatusWord (u : Urgent) : Word :=
  BitVec.ofNat 32
    (u.state.code + flag u.lost 2 + field u.result.code 4 + field ((u.command.getD 0).toNat % 256) 8 +
      field u.value.toNat 16)

/-- PORT_DEPTH. -/
def portDepthWord (p : Port) : Word := BitVec.ofNat 32 (p.list.length + field p.inFlight.length 16)

/-- TARIFF_STATE. -/
def tariffStateWord (t : Tariff) : Word := BitVec.ofNat 32 (flag t.activeB 0 + field t.epoch.toNat 8)

/-- TARIFF_VIEW_SEL. -/
def viewSelWord (v : ViewSel) : Word := BitVec.ofNat 32 (flag v.bankB 0 + flag v.row 4 + field v.number.val 8)

/-- LINE_CONFIG. -/
def lineConfigWord (c : LineConfig) : Word :=
  BitVec.ofNat 32
    (flag c.enabled 0 + field c.group.val 4 + field c.mode.code 8 + field c.deadline.toNat 16 + flag c.accept 24)

/-- LINE_STATUS (R95). While the last sequence is absent its bits show 0: the spec gives them no value then (log entry
25). -/
def lineStatusWord (l : Line) : Word :=
  BitVec.ofNat 32
    (l.state.code + flag l.lastSeq.isNone 3 + field (l.lastSeq.getD 0).toNat 8 +
      match l.verdict with
      | some v => field v.outcome.code 16 + field v.reason.code 24
      | none => 0)

/-- The identifier bits 32 to 55. -/
def identHigh (x : Ident) : Word := (x.extractLsb' 32 24).zeroExtend 32

/-- The identifier bits 0 to 31. -/
def identLow (x : Ident) : Word := x.extractLsb' 0 32

/-- Word `j` of the Peek Window, from its header on (R171; the check value is shown as 0). -/
def peekWord (p : PeekWindow) (j : Nat) : Word :=
  if j = 0 then
    BitVec.ofNat 32
      (flag p.valid 0 + flag p.dirty 1 + flag p.writeInFlight 2 + flag p.wbFault 3 + field p.slot.val 8 +
        field p.key.toNat 16)
  else wordAt (imageBytes p.record p.products 0) (4 * (j - 1))

/-! ## Multi-word registers (R197) -/

/-- R133: value `n` of the item that the tariff view selects. -/
def viewValue (t : Tariff) (n : Fin 8) : Half :=
  let b := if t.view.bankB then t.bankB else t.bankA
  if t.view.row then b.baseFare t.view.number n
  else
    let e := b.classEntry t.view.number
    match n.val with
    | 0 => e.minEntry
    | 1 => e.overdraft
    | 2 => e.percent
    | 3 => e.unmatched
    | 4 => e.passback
    | 5 => e.burst
    | 6 => e.refill
    | _ => e.maxTrip

/-- Table 12.8: word `j` of TARIFF_VIEW. -/
def viewWord (t : Tariff) (j : Fin 4) : Word :=
  viewValue t ⟨2 * j.val + 1, by omega⟩ ++ viewValue t ⟨2 * j.val, by omega⟩

/-- R99: the age of a tap context in milliseconds, stopping at 65,535. -/
def tapAge (s : State) (x : TapContext) : Nat := min 65535 (elapsedMs s x.arrival)

/-- Table 12.8: the first word of RANGE_RULE. -/
def rangeWord (r : RangeRule) : Word :=
  BitVec.ofNat 32 (r.level.val + field r.exponent.val 8 + field r.action.code 16 + field r.cls.val 24)

/-- Table 12.8: the first word of a BLOCK_MARKS entry; the identifier bits of a free entry show 0 (log entry 25). -/
def markWord (m : Option Ident) : Word :=
  match m with
  | some x => BitVec.ofNat 32 (1 + field (x.extractLsb' 0 24).toNat 8)
  | none => 0

/-- Table 12.8: the first word of TAPQ_STATUS; the fields of a free context show 0 (log entry 25). -/
def tapWord (x : Option TapContext) : Word :=
  match x with
  | some x => BitVec.ofNat 32 (1 + field x.line.val 4 + flag x.awaitRecord 8 + field x.key.toNat 16)
  | none => 0

/-- LAST_FAULT, first word. -/
def lastFaultWord (f : LastFault) : Word :=
  BitVec.ofNat 32 ((f.kind.map OpKind.code).getD 0 + field f.outcome.code 4)

/-- LAST_WATCH, first word. -/
def lastWatchWord (w : LastWatch) : Word :=
  BitVec.ofNat 32 (flag w.valid 0 + field w.line.val 8 + field w.rule.val 16)

/-- R197: the lowest word of a multi-word register as the device holds it. -/
def lowestWord (r : MultiReg) (s : State) : Word :=
  match r with
  | .stationClock => s.clock.seconds
  | .lastFault => lastFaultWord s.port.lastFault
  | .tariffView => viewWord s.tariff 0
  | .lastWatch => lastWatchWord s.lastWatch
  | .rangeRule n => rangeWord (s.ranges.get n)
  | .blockMark m => markWord (s.marks.get m)
  | .tapqStatus c => tapWord (s.ctx c)

/-- R197: the copies after a read of the lowest word of a register: its other words as the device holds them. The
identifier of a free mark entry and the age of a free context show 0 (log entry 25). -/
def takeCopy (r : MultiReg) (s : State) : RegCopies :=
  let k := s.copies
  match r with
  | .stationClock =>
    { k with
      stationPhase := BitVec.ofNat 32 s.clock.phase, stationDay := BitVec.ofNat 32 (s.clock.seconds.toNat / 86400) }
  | .lastFault => { k with faultPlace := s.port.lastFault.place }
  | .tariffView => { k with tariffView := #v[viewWord s.tariff 1, viewWord s.tariff 2, viewWord s.tariff 3] }
  | .lastWatch => { k with lastWatch := #v[identLow s.lastWatch.ident, identHigh s.lastWatch.ident] }
  | .rangeRule n =>
    let r := s.ranges.get n
    { k with rangeRule := k.rangeRule.set n.val #v[identLow r.base, identHigh r.base, 0] n.isLt }
  | .blockMark m =>
    { k with
      blockMark := k.blockMark.set m.val (((s.marks.get m).getD 0).extractLsb' 24 32) m.isLt }
  | .tapqStatus c =>
    { k with
      tapqStatus :=
        k.tapqStatus.set c.val (BitVec.ofNat 32 (((s.ctx c).map (tapAge s)).getD 0)) c.isLt }

/-! ## Reads -/

/-- The line registers: word `j` of line `n`. -/
def lineRegWord (n : LineNo) (j : Nat) (s : State) : Word :=
  let l := s.line n
  match j with
  | 0 => lineConfigWord l.config
  | 1 => lineStatusWord l
  | 2 => l.tapsTaken.zeroExtend 32
  | 3 => l.busy.zeroExtend 32
  | 4 => l.overruns.zeroExtend 32
  | 5 => l.frameErrors.zeroExtend 32
  | 6 => l.deadlines.zeroExtend 32
  | _ => 0

/-- The registers of the window's first 256 bytes. -/
def lowRegWord (off : Nat) (s : State) : Word :=
  match off with
  | 0x004 => engineStateWord s.engine
  | 0x008 => BitVec.ofNat 32 s.engine.keyShape.val
  | 0x00C => s.engine.homeBase
  | 0x010 => lowestWord .stationClock s
  | 0x014 => s.copies.stationPhase
  | 0x018 => s.copies.stationDay
  | 0x020 => BitVec.ofNat 32 ((s.attn.cause.map Source.code).getD 0)
  | 0x024 => s.attn.pending.zeroExtend 32
  | 0x028 => s.attn.levels.zeroExtend 32
  | 0x02C => coalesceWord s.attn
  | 0x030 => s.change.listAddr
  | 0x038 => changeStateWord s.change
  | 0x03C => s.change.blockAddr
  | 0x040 => changeLastWord s.change
  | 0x048 => identLow s.urgent.arg
  | 0x04C => identHigh s.urgent.arg
  | 0x054 => urgentStatusWord s.urgent
  | 0x058 => BitVec.ofNat 32 (markCount s)
  | 0x060 => s.counts.misses.zeroExtend 32
  | 0x064 => s.counts.cleanEvictions.zeroExtend 32
  | 0x068 => s.counts.dirtyEvictions.zeroExtend 32
  | 0x06C => s.counts.rescues.zeroExtend 32
  | 0x070 => BitVec.ofNat 32 (slotCount (fun x => x.state == .free) s)
  | 0x074 => BitVec.ofNat 32 (slotCount (fun x => x.dirty) s)
  | 0x078 => BitVec.ofNat 32 (slotCount (fun x => x.wbFault) s)
  | 0x07C => BitVec.ofNat 32 s.pool.free.length
  | 0x080 => lowestWord .lastFault s
  | 0x084 => s.copies.faultPlace
  | 0x088 => s.port.faults.zeroExtend 32
  | 0x08C => s.port.late.zeroExtend 32
  | 0x090 => portDepthWord s.port
  | 0x094 => tariffStateWord s.tariff
  | 0x098 => viewSelWord s.tariff.view
  | 0x0A0 => lowestWord .tariffView s
  | 0x0A4 => s.copies.tariffView[0]
  | 0x0A8 => s.copies.tariffView[1]
  | 0x0AC => s.copies.tariffView[2]
  | 0x0B0 => lowestWord .lastWatch s
  | 0x0B4 => s.copies.lastWatch[0]
  | 0x0B8 => s.copies.lastWatch[1]
  | 0x0C0 => BitVec.ofNat 32 (allCtxs.countP fun c => (s.ctx c).isNone)
  | 0x0C4 => s.lineEvents.zeroExtend 32
  | _ => 0

/-- Word `j` of RANGE_RULE `n`. -/
def rangeRegWord (n : Fin 16) (j : Nat) (s : State) : Word :=
  match j with
  | 0 => lowestWord (.rangeRule n) s
  | 1 => (s.copies.rangeRule.get n)[0]
  | 2 => (s.copies.rangeRule.get n)[1]
  | _ => (s.copies.rangeRule.get n)[2]

/-- R196, R197: the value that a host read of a register answers with (log entry 18: of all reads, only those of the rows
ATTN_CAUSE_READ and MULTIWORD_LOWEST_READ change the device). -/
def regRead (s : State) (off : Nat) : Word :=
  if off < 0x100 then lowRegWord off s
  else if off < 0x200 then rangeRegWord (Fin.ofNat 16 ((off - 0x100) / 16)) ((off - 0x100) % 16 / 4) s
  else if off < 0x280 then
    let m := Fin.ofNat 16 ((off - 0x200) / 8)
    if off % 8 = 0 then lowestWord (.blockMark m) s else s.copies.blockMark.get m
  else if off < 0x300 then 0
  else if off < 0x3BC then peekWord s.peek ((off - 0x300) / 4)
  else if off < 0x400 then 0
  else if off < 0x600 then lineRegWord (Fin.ofNat 16 ((off - 0x400) / 32)) ((off - 0x400) % 32 / 4) s
  else if off < 0x660 then
    let c := Fin.ofNat 12 ((off - 0x600) / 8)
    if off % 8 = 0 then lowestWord (.tapqStatus c) s else s.copies.tapqStatus.get c
  else 0

/-! ## Writes -/

/-- A register whose write acts in STOPPED, RUNNING and DRAINING alone (R196). -/
def whenOpen (f : State → State) (s : State) : State := if s.isOpen then f s else s

/-- R140: a host write to CHANGE_LIST. -/
def writeChangeList (v : Word) (s : State) : State := s.modChange fun u => { u with listAddr := v }

/-- R165, Table 12.7: a host write to the low word of URGENT_ARG. -/
def writeArgLow (v : Word) (s : State) : State :=
  s.modUrgent fun u => { u with arg := u.arg.extractLsb' 32 24 ++ v }

/-- R165, Table 12.7: a host write to the high word of URGENT_ARG. -/
def writeArgHigh (v : Word) (s : State) : State :=
  s.modUrgent fun u => { u with arg := v.extractLsb' 0 24 ++ u.arg.extractLsb' 0 32 }

/-- R70, R67: a host write to LAST_FAULT. -/
def clearLastFault (s : State) : State := s.modPort fun p => { p with lastFault := LastFault.none }

/-- R133: a host write to TARIFF_VIEW_SEL; a number above 7 is ignored whole. -/
def writeViewSel (v : Word) (s : State) : State :=
  if h : (v.extractLsb' 8 8).toNat < 8 then
    s.setTariff
      { s.tariff with view := { bankB := v[0], row := v[4], number := ⟨(v.extractLsb' 8 8).toNat, h⟩ } }
  else s

/-- R93: a host write to a counter of a line. -/
def clearLineCounter (n : LineNo) (j : Nat) (s : State) : State :=
  s.modLine n fun l =>
    match j with
    | 2 => { l with tapsTaken := 0 }
    | 3 => { l with busy := 0 }
    | 4 => { l with overruns := 0 }
    | 5 => { l with frameErrors := 0 }
    | 6 => { l with deadlines := 0 }
    | _ => l

/-- A host write to word `j` of a line's registers. -/
def writeLineReg (n : LineNo) (j : Nat) (v : Word) (s : State) : State :=
  match j with
  | 0 => writeConfig n v s
  | _ => whenOpen (clearLineCounter n j) s

/-- A host write to a register of the window's first 256 bytes. -/
def writeLowReg (off : Nat) (v : Word) (s : State) : State :=
  match off with
  | 0x000 => writeEngineCtrl v s
  | 0x008 => writeKeyShape v s
  | 0x00C => writeHomeBase v s
  | 0x010 => writeClock v s
  | 0x024 => clearPending v s
  | 0x028 => writeLevels v s
  | 0x02C => writeCoalesce (coalesceThreshold v) (coalesceWindow v) s
  | 0x030 => whenOpen (writeChangeList v) s
  | 0x034 => writeChangeCtrl v s
  | 0x048 => whenOpen (writeArgLow v) s
  | 0x04C => whenOpen (writeArgHigh v) s
  | 0x050 => writeUrgentCmd v s
  | 0x060 => whenOpen (fun s => s.modCounts fun c => { c with misses := 0 }) s
  | 0x064 => whenOpen (fun s => s.modCounts fun c => { c with cleanEvictions := 0 }) s
  | 0x068 => whenOpen (fun s => s.modCounts fun c => { c with dirtyEvictions := 0 }) s
  | 0x06C => whenOpen (fun s => s.modCounts fun c => { c with rescues := 0 }) s
  | 0x080 => whenOpen clearLastFault s
  | 0x084 => whenOpen clearLastFault s
  | 0x088 => whenOpen (fun s => s.modPort fun p => { p with faults := 0 }) s
  | 0x08C => whenOpen (fun s => s.modPort fun p => { p with late := 0 }) s
  | 0x098 => whenOpen (writeViewSel v) s
  | 0x0B0 => whenOpen (fun s => s.setLastWatch LastWatch.reset) s
  | 0x0B4 => whenOpen (fun s => s.setLastWatch LastWatch.reset) s
  | 0x0B8 => whenOpen (fun s => s.setLastWatch LastWatch.reset) s
  | 0x0C4 => clearLineEvents v s
  | _ => s

/-- R196: a host write to a register of the window, by its offset; a write to a register of access R or to an offset
assigned to no register is ignored. -/
def regWrite (off : Nat) (v : Word) (s : State) : State :=
  if off < 0x100 then writeLowReg off v s
  else if 0x400 ≤ off ∧ off < 0x600 then
    writeLineReg (Fin.ofNat 16 ((off - 0x400) / 32)) ((off - 0x400) % 32 / 4) v s
  else s

/-- Section 12.4, R71: the offset addresses a word of the window. -/
def inWindow (off : Nat) : Bool := off < 0x660 && off % 4 == 0

/-- R197: a read of the lowest word of a multi-word register: the slave answers with it and the copies are taken. -/
def readLowest (r : MultiReg) (s : State) : State :=
  (s.setSlave (lowestWord r s)).setCopies (takeCopy r s)

/-- R71: what the slave drives at a host read of an offset of the window: the register's value, and odd parity on each
byte lane. -/
def slaveDrives (s : State) (off : Nat) : Word × BitVec 4 := (regRead s off, oddParity (regRead s off))

end Sys2Proof.Machine
end

