-- ==== Sys2Proof/Machine/EngineCommands.lean ====
section
/-! DEFINITION. The meanings of the engine, clock and attention commands (chapters 10 and 11). -/

namespace Sys2Proof.Machine

/-- A command that changes the state and never stops the device. -/
def done (s : State) : Host.Outcome State Fault Refusal := .next s

/-- POWER_ON (R187). -/
def execPowerOn (s : State) : Host.Outcome State Fault Refusal := done (powerUp s)

/-- HOLD (R187). -/
def execHold (s : State) : Host.Outcome State Fault Refusal := done (controlHold s)

/-- RELEASE (R188). -/
def execRelease (s : State) : Host.Outcome State Fault Refusal := done (controlRelease s)

/-- INITIALISATION_COMPLETE (R188). -/
def execInitialisationComplete (s : State) : Host.Outcome State Fault Refusal := done (initialisationEvent s)

/-- RUN (R189). -/
def execRun (s : State) : Host.Outcome State Fault Refusal := done (controlRun s)

/-- STOP (R190). -/
def execStop (s : State) : Host.Outcome State Fault Refusal := done (controlStop s)

/-- EVICT_ALL (R45, R190), when its condition holds. -/
def execEvictAll (s : State) : Host.Outcome State Fault Refusal :=
  done (if evictAllDue s then settle (evictAllSlots s) else s)

/-- DRAIN_COMPLETE (R191), when its condition holds. -/
def execDrainComplete (s : State) : Host.Outcome State Fault Refusal :=
  done (if drainDue s then settle (finishDrain s) else s)

/-- KEY_SHAPE_WRITE (R11). -/
def execKeyShapeWrite (v : Word) (s : State) : Host.Outcome State Fault Refusal := done (writeKeyShape v s)

/-- HOME_BASE_WRITE (R12). -/
def execHomeBaseWrite (v : Word) (s : State) : Host.Outcome State Fault Refusal := done (writeHomeBase v s)

/-- STATION_CLOCK_WRITE (R176). -/
def execStationClockWrite (v : Word) (s : State) : Host.Outcome State Fault Refusal := done (writeClock v s)

/-- ATTN_CAUSE_READ (R181). -/
def execAttnCauseRead (s : State) : Host.Outcome State Fault Refusal := done (readCause s)

/-- ATTN_PENDING_WRITE (R182). -/
def execAttnPendingWrite (v : Word) (s : State) : Host.Outcome State Fault Refusal := done (clearPending v s)

/-- ATTN_LEVEL_WRITE (R180). -/
def execAttnLevelWrite (v : Word) (s : State) : Host.Outcome State Fault Refusal := done (writeLevels v s)

/-- ATTN_COALESCE_WRITE (R184). -/
def execAttnCoalesceWrite (threshold window : Nat) (s : State) : Host.Outcome State Fault Refusal :=
  done (writeCoalesce threshold window s)

/-- COALESCE_WINDOW_EXPIRY (R183), when it is due. -/
def execCoalesceWindowExpiry (s : State) : Host.Outcome State Fault Refusal := done (windowEvent s)

/-- CLOCK_ADVANCE (R175), when the phase is 999. -/
def execClockAdvance (s : State) : Host.Outcome State Fault Refusal := done (clockAdvanceEvent s)

/-- MULTIWORD_LOWEST_READ (R197). -/
def execMultiwordLowestRead (r : MultiReg) (s : State) : Host.Outcome State Fault Refusal := done (readLowest r s)

/-- REGISTER_WRITE (R196): a write outside the window, or not word aligned, addresses no register (log entry 16). -/
def execRegisterWrite (off : Nat) (v : Word) (s : State) : Host.Outcome State Fault Refusal :=
  if inWindow off then .next (regWrite off v s) else .fault (.noSuchRegister off)

end Sys2Proof.Machine
end

