-- ==== Sys2Proof/Machine/LineCommands.lean ====
section
/-! DEFINITION. The meanings of the gate-line commands (chapter 5). -/

namespace Sys2Proof.Machine

/-- LINE_EVENTS_WRITE (R94). -/
def execLineEventsWrite (v : Word) (s : State) : Host.Outcome State Fault Refusal := done (clearLineEvents v s)

/-- LINE_ENABLE (R75): a write to LINE_CONFIG whose enabled field is yes (log entry 22). -/
def execLineEnable (n : LineNo) (v : Word) (s : State) : Host.Outcome State Fault Refusal :=
  done (writeConfig n (v ||| 1#32) s)

/-- LINE_DISABLE (R91): a write to LINE_CONFIG whose enabled field is no (log entry 22). -/
def execLineDisable (n : LineNo) (v : Word) (s : State) : Host.Outcome State Fault Refusal :=
  done (writeConfig n (v &&& ~~~1#32) s)

/-- TAP (R79 to R83). -/
def execTap (n : LineNo) (sequence direction : Byte) (issuer : BitVec 16) (serial : BitVec 40) (check : Byte)
    (s : State) : Host.Outcome State Fault Refusal :=
  done (riseSelect n (judgeTap n sequence direction issuer serial check) s)

/-- POLL_REPLY_FIXED (R85). -/
def execPollReplyFixed (n : LineNo) (s : State) : Host.Outcome State Fault Refusal := done (fixReply false n s)

/-- POLL (R85). -/
def execPoll (n : LineNo) (s : State) : Host.Outcome State Fault Refusal := done (finishReply false n s)

/-- REPEAT_REPLY_FIXED (R86). -/
def execRepeatReplyFixed (n : LineNo) (s : State) : Host.Outcome State Fault Refusal := done (fixReply true n s)

/-- REPEAT (R86). -/
def execRepeatFrame (n : LineNo) (s : State) : Host.Outcome State Fault Refusal := done (finishReply true n s)

/-- FRAME_CUT_SHORT (R77). -/
def execFrameCutShort (n : LineNo) (s : State) : Host.Outcome State Fault Refusal := done (cutShort n s)

/-- UNKNOWN_OPCODE (R77). -/
def execUnknownOpcode (n : LineNo) (o : Byte) (s : State) : Host.Outcome State Fault Refusal :=
  done (if (frameKindOf o).isSome then s else riseSelect n (countFrameError n) s)

/-- DEADLINE_EXPIRY (R88), when it is due. -/
def execDeadlineExpiry (n : LineNo) (s : State) : Host.Outcome State Fault Refusal := done (deadlineEvent n s)

/-- FRAME_START (R76). -/
def execFrameStart (n : LineNo) (s : State) : Host.Outcome State Fault Refusal := done (fallSelect n s)

/-- FRAME_WITHOUT_OPCODE (R77, R75). -/
def execFrameWithoutOpcode (n : LineNo) (s : State) : Host.Outcome State Fault Refusal := done (riseSelect n id s)

end Sys2Proof.Machine
end

