-- ==== Sys2Proof/Machine/ChangeCommands.lean ====
section
/-! DEFINITION. The meanings of the change controls, of the change commands that a block carries, and of the ends of the
Change Unit's own memory operations (chapter 8). -/

namespace Sys2Proof.Machine

/-! ## Controls -/

/-- START (R142). -/
def execStart (s : State) : Host.Outcome State Fault Refusal := done (controlStart s)

/-- RESUME (R143). -/
def execResume (s : State) : Host.Outcome State Fault Refusal := done (controlResume s)

/-- SUSPEND (R144). -/
def execSuspend (s : State) : Host.Outcome State Fault Refusal := done (controlSuspend s)

/-- ABORT (R145, R146). -/
def execAbort (s : State) : Host.Outcome State Fault Refusal := done (controlAbort s)

/-- R141, Table 8.2: whether a control's code is taken in the state the unit and the engine are in. -/
def controlTaken (code : Word) (s : State) : Bool :=
  let u := s.change
  if code = 1 then s.running && (u.state == .idle || u.state == .halted)
  else if code = 2 then s.running && (u.state == .suspended || (u.state == .idle && u.lastValid))
  else if code = 3 then u.busy && u.stop != .abort
  else if code = 4 then (u.state == .reading && !u.abandoned) || u.state == .waiting || u.state == .storing
  else false

/-- CHANGE_CTRL_REFUSED (R141): a write to CHANGE_CTRL that is refused or names no control. -/
def execChangeCtrlRefused (code : Word) (s : State) : Host.Outcome State Fault Refusal :=
  done (if s.isOpen && !controlTaken code s then refuseControl s else s)

/-! ## The commands of a block: the event at which the last word of its BLOCK READ arrives -/

/-- NOP (R148). -/
def execNop (op : Nat) (w : Word) (p : BitVec 4) (s : State) : Host.Outcome State Fault Refusal :=
  done (blockCommand .nop op w p s)

/-- ENROLL (R151). -/
def execEnroll (op : Nat) (w : Word) (p : BitVec 4) (s : State) : Host.Outcome State Fault Refusal :=
  done (blockCommand .enroll op w p s)

/-- AMEND (R152). -/
def execAmend (op : Nat) (w : Word) (p : BitVec 4) (s : State) : Host.Outcome State Fault Refusal :=
  done (blockCommand .amend op w p s)

/-- ADJUST (R153). -/
def execAdjust (op : Nat) (w : Word) (p : BitVec 4) (s : State) : Host.Outcome State Fault Refusal :=
  done (blockCommand .adjust op w p s)

/-- ADD_PRODUCT (R154). -/
def execAddProduct (op : Nat) (w : Word) (p : BitVec 4) (s : State) : Host.Outcome State Fault Refusal :=
  done (blockCommand .addProduct op w p s)

/-- REMOVE_PRODUCT (R154). -/
def execRemoveProduct (op : Nat) (w : Word) (p : BitVec 4) (s : State) : Host.Outcome State Fault Refusal :=
  done (blockCommand .removeProduct op w p s)

/-- BLOCK (R155). -/
def execBlock (op : Nat) (w : Word) (p : BitVec 4) (s : State) : Host.Outcome State Fault Refusal :=
  done (blockCommand .block op w p s)

/-- UNBLOCK (R155). -/
def execUnblock (op : Nat) (w : Word) (p : BitVec 4) (s : State) : Host.Outcome State Fault Refusal :=
  done (blockCommand .unblock op w p s)

/-- RETIRE (R156). -/
def execRetire (op : Nat) (w : Word) (p : BitVec 4) (s : State) : Host.Outcome State Fault Refusal :=
  done (blockCommand .retire op w p s)

/-- FLUSH (R157). -/
def execFlush (op : Nat) (w : Word) (p : BitVec 4) (s : State) : Host.Outcome State Fault Refusal :=
  done (blockCommand .flush op w p s)

/-- FLUSH_ALL (R158). -/
def execFlushAll (op : Nat) (w : Word) (p : BitVec 4) (s : State) : Host.Outcome State Fault Refusal :=
  done (blockCommand .flushAll op w p s)

/-- LOAD_CLASS (R129). -/
def execLoadClass (op : Nat) (w : Word) (p : BitVec 4) (s : State) : Host.Outcome State Fault Refusal :=
  done (blockCommand .loadClass op w p s)

/-- LOAD_FARES (R130). -/
def execLoadFares (op : Nat) (w : Word) (p : BitVec 4) (s : State) : Host.Outcome State Fault Refusal :=
  done (blockCommand .loadFares op w p s)

/-- COPY_ACTIVE (R131). -/
def execCopyActive (op : Nat) (w : Word) (p : BitVec 4) (s : State) : Host.Outcome State Fault Refusal :=
  done (blockCommand .copyActive op w p s)

/-- SWITCH_TARIFF (R132). -/
def execSwitchTariff (op : Nat) (w : Word) (p : BitVec 4) (s : State) : Host.Outcome State Fault Refusal :=
  done (blockCommand .switchTariff op w p s)

/-- SET_RANGE (R138). -/
def execSetRange (op : Nat) (w : Word) (p : BitVec 4) (s : State) : Host.Outcome State Fault Refusal :=
  done (blockCommand .setRange op w p s)

/-- BLOCK_CHECK_FAILED (R147). -/
def execBlockCheckFailed (op : Nat) (w : Word) (p : BitVec 4) (s : State) : Host.Outcome State Fault Refusal :=
  done (blockRefused op w p s)

/-- RESUME_REREAD_DONE (R143). -/
def execResumeRereadDone (op : Nat) (w : Word) (p : BitVec 4) (s : State) : Host.Outcome State Fault Refusal :=
  done (rereadDone op w p s)

/-! ## The ends of the unit's own operations -/

/-- R66: the operation at a place ends in the given way, when the end can occur and passes a test on the request, whether
the outcome is OK, and the state; the requester acts in the same event. -/
def endEvent (test : Request → Bool → Bool) (i : Nat) (e : BusEnd) (s : State) : State :=
  match s.op i with
  | none => s
  | some o =>
    match o.endBy s e with
    | none => s
    | some (o', out) =>
      if test o.request (out == .ok) then settle (deliverEnd o' (out == .ok) (endOp i o' out (ackEnd o e s))) else s

/-- BLOCK_READ_FAIL (R161). -/
def execBlockReadFail (op : Nat) (e : BusEnd) (s : State) : Host.Outcome State Fault Refusal :=
  done (endEvent (fun q ok => q.kind == .blockRead && q != q.abandon && !ok) op e s)

/-- ABANDONED_READ_END (R145). -/
def execAbandonedReadEnd (op : Nat) (e : BusEnd) (s : State) : Host.Outcome State Fault Refusal :=
  done (endEvent (fun q _ => q.kind == .blockRead && q == q.abandon) op e s)

/-- STATUS_WRITE_COMPLETE (R160). -/
def execStatusWriteComplete (op : Nat) (s : State) : Host.Outcome State Fault Refusal :=
  done (endEvent (fun q ok => q.kind == .statusWrite && ok) op (.response .ack) s)

/-- STATUS_WRITE_FAIL (R162). -/
def execStatusWriteFail (op : Nat) (e : BusEnd) (s : State) : Host.Outcome State Fault Refusal :=
  done (endEvent (fun q ok => q.kind == .statusWrite && !ok) op e s)

end Sys2Proof.Machine
end

