-- ==== Sys2Proof/Machine/PortEvents.lean ====
section
/-! DEFINITION. The meanings of the events of the port and of the cache (chapters 2 and 4). -/

namespace Sys2Proof.Machine

/-- FETCH_COMPLETE (R31): the last word of a FETCH arrives good. -/
def execFetchComplete (op : Nat) (w : Word) (p : BitVec 4) (s : State) : Host.Outcome State Fault Refusal :=
  done (endEvent (fun q ok => q.kind == .fetch && ok) op (.response (.data w p)) s)

/-- FETCH_FAIL (R32). -/
def execFetchFail (op : Nat) (e : BusEnd) (s : State) : Host.Outcome State Fault Refusal :=
  done (endEvent (fun q ok => q.kind == .fetch && !ok) op e s)

/-- A WRITE-BACK of a slot without write-in-flight is its eviction write (R34, R38). -/
def isEvictionWrite (s : State) : Request → Bool
  | .writeBack i _ _ _ => !(s.slot i).writeInFlight
  | _ => false

/-- A WRITE-BACK of a slot with write-in-flight set is its flush-type write (R38). -/
def isFlushWrite (s : State) : Request → Bool
  | .writeBack i _ _ _ => (s.slot i).writeInFlight
  | _ => false

/-- EVICTION_WRITE_COMPLETE (R36). -/
def execEvictionWriteComplete (op : Nat) (e : BusEnd) (s : State) : Host.Outcome State Fault Refusal :=
  done (endEvent (fun q _ => isEvictionWrite s q) op e s)

/-- FLUSH_WRITE_COMPLETE (R39, R35). -/
def execFlushWriteComplete (op : Nat) (e : BusEnd) (s : State) : Host.Outcome State Fault Refusal :=
  done (endEvent (fun q _ => isFlushWrite s q) op e s)

/-- R40: the cleaner has a write to issue. -/
def cleanerDue (s : State) : Bool := cleanerActs s && (victim Slot.dirtyEligible s).isSome

/-- CLEANER_WRITE (R40), when its condition holds. -/
def execCleanerWrite (s : State) : Host.Outcome State Fault Refusal :=
  done (if cleanerDue s then settle (cleanerOne s) else s)

/-- R44: the condition of reclaim. -/
def reclaimDue (s : State) : Bool := !s.slotWait.isEmpty && (victim Slot.cleanEligible s).isSome

/-- RECLAIM (R44), when its condition holds. -/
def execReclaim (s : State) : Host.Outcome State Fault Refusal :=
  done (if reclaimDue s then settle (reclaimOne s) else s)

/-- PORT_BEGIN (R60), when its condition holds. -/
def execPortBegin (s : State) : Host.Outcome State Fault Refusal := done (beginOne s)

/-- PORT_TIMEOUT (R64), when the timer has run out. -/
def execPortTimeout (op : Nat) (s : State) : Host.Outcome State Fault Refusal := done (portTimeoutEvent op s)

/-- LATE_RESPONSE (R65). -/
def execLateResponse (beat : Nat) (r : BusResponse) (s : State) : Host.Outcome State Fault Refusal :=
  done (lateResponse beat r s)

/-- BEAT_RESPONSE (R61, R62). -/
def execBeatResponse (op : Nat) (r : BusResponse) (s : State) : Host.Outcome State Fault Refusal :=
  done (beatResponse op r s)

end Sys2Proof.Machine
end

