-- ==== Sys2Proof/Machine/UrgentCommands.lean ====
section
/-! DEFINITION. The meanings of the urgent commands (chapter 9). -/

namespace Sys2Proof.Machine

/-- URGENT_BLOCK (R167). -/
def execUrgentBlock (s : State) : Host.Outcome State Fault Refusal := done (urgentBlockCmd s)

/-- UNMARK (R168). -/
def execUnmark (s : State) : Host.Outcome State Fault Refusal := done (unmarkCmd s)

/-- PEEK (R171). -/
def execPeek (s : State) : Host.Outcome State Fault Refusal := done (peekCmd s)

/-- URGENT_FLUSH (R172). -/
def execUrgentFlush (s : State) : Host.Outcome State Fault Refusal := done (urgentFlushCmd s)

/-- RETRY_WRITE (R173). -/
def execRetryWrite (s : State) : Host.Outcome State Fault Refusal := done (retryWriteCmd s)

/-- Table 12.7: a code that names an urgent command. -/
def knownUrgent (code : Word) : Bool := 1 ≤ code.toNat && code.toNat ≤ 5

/-- URGENT_UNKNOWN_CODE (R166). -/
def execUrgentUnknownCode (code : Word) (s : State) : Host.Outcome State Fault Refusal :=
  done (if knownUrgent code then s else unknownUrgentCmd code s)

/-- URGENT_COMMAND_LOST (R166): a write to URGENT_CMD while the unit is BUSY. -/
def execUrgentCommandLost (_code : Word) (s : State) : Host.Outcome State Fault Refusal :=
  done (if s.isOpen && s.urgent.state == .busy then loseUrgent s else s)

end Sys2Proof.Machine
end

