-- ==== Sys2Proof/Machine/Dispatch.lean ====
section
/-! DEFINITION. The meaning of every command: one arm for each constructor of Instr. -/

namespace Sys2Proof.Machine

def exec (i : Instr) (s : State) : Host.Outcome State Fault Refusal :=
  match i with
  | .powerOn => Sys2Proof.Machine.execPowerOn s
  | .hold => Sys2Proof.Machine.execHold s
  | .release => Sys2Proof.Machine.execRelease s
  | .initialisationComplete => Sys2Proof.Machine.execInitialisationComplete s
  | .run => Sys2Proof.Machine.execRun s
  | .stop => Sys2Proof.Machine.execStop s
  | .evictAll => Sys2Proof.Machine.execEvictAll s
  | .drainComplete => Sys2Proof.Machine.execDrainComplete s
  | .keyShapeWrite value => Sys2Proof.Machine.execKeyShapeWrite value s
  | .homeBaseWrite value => Sys2Proof.Machine.execHomeBaseWrite value s
  | .stationClockWrite value => Sys2Proof.Machine.execStationClockWrite value s
  | .attnCauseRead => Sys2Proof.Machine.execAttnCauseRead s
  | .attnPendingWrite value => Sys2Proof.Machine.execAttnPendingWrite value s
  | .attnLevelWrite value => Sys2Proof.Machine.execAttnLevelWrite value s
  | .attnCoalesceWrite threshold window => Sys2Proof.Machine.execAttnCoalesceWrite threshold window s
  | .lineEventsWrite value => Sys2Proof.Machine.execLineEventsWrite value s
  | .lineEnable line value => Sys2Proof.Machine.execLineEnable line value s
  | .lineDisable line value => Sys2Proof.Machine.execLineDisable line value s
  | .multiwordLowestRead reg => Sys2Proof.Machine.execMultiwordLowestRead reg s
  | .registerWrite offset value => Sys2Proof.Machine.execRegisterWrite offset value s
  | .start => Sys2Proof.Machine.execStart s
  | .resume => Sys2Proof.Machine.execResume s
  | .suspend => Sys2Proof.Machine.execSuspend s
  | .abort => Sys2Proof.Machine.execAbort s
  | .changeCtrlRefused code => Sys2Proof.Machine.execChangeCtrlRefused code s
  | .urgentBlock => Sys2Proof.Machine.execUrgentBlock s
  | .unmark => Sys2Proof.Machine.execUnmark s
  | .peek => Sys2Proof.Machine.execPeek s
  | .urgentFlush => Sys2Proof.Machine.execUrgentFlush s
  | .retryWrite => Sys2Proof.Machine.execRetryWrite s
  | .urgentUnknownCode code => Sys2Proof.Machine.execUrgentUnknownCode code s
  | .urgentCommandLost code => Sys2Proof.Machine.execUrgentCommandLost code s
  | .tap line q d x y k => Sys2Proof.Machine.execTap line q d x y k s
  | .pollReplyFixed line => Sys2Proof.Machine.execPollReplyFixed line s
  | .poll line => Sys2Proof.Machine.execPoll line s
  | .repeatReplyFixed line => Sys2Proof.Machine.execRepeatReplyFixed line s
  | .repeatFrame line => Sys2Proof.Machine.execRepeatFrame line s
  | .frameCutShort line => Sys2Proof.Machine.execFrameCutShort line s
  | .unknownOpcode line opcode => Sys2Proof.Machine.execUnknownOpcode line opcode s
  | .deadlineExpiry line => Sys2Proof.Machine.execDeadlineExpiry line s
  | .fetchComplete op word parity => Sys2Proof.Machine.execFetchComplete op word parity s
  | .fetchFail op ending => Sys2Proof.Machine.execFetchFail op ending s
  | .evictionWriteComplete op ending => Sys2Proof.Machine.execEvictionWriteComplete op ending s
  | .flushWriteComplete op ending => Sys2Proof.Machine.execFlushWriteComplete op ending s
  | .cleanerWrite => Sys2Proof.Machine.execCleanerWrite s
  | .reclaim => Sys2Proof.Machine.execReclaim s
  | .portBegin => Sys2Proof.Machine.execPortBegin s
  | .portTimeout op => Sys2Proof.Machine.execPortTimeout op s
  | .lateResponse beat response => Sys2Proof.Machine.execLateResponse beat response s
  | .nop op word parity => Sys2Proof.Machine.execNop op word parity s
  | .enroll op word parity => Sys2Proof.Machine.execEnroll op word parity s
  | .amend op word parity => Sys2Proof.Machine.execAmend op word parity s
  | .adjust op word parity => Sys2Proof.Machine.execAdjust op word parity s
  | .addProduct op word parity => Sys2Proof.Machine.execAddProduct op word parity s
  | .removeProduct op word parity => Sys2Proof.Machine.execRemoveProduct op word parity s
  | .block op word parity => Sys2Proof.Machine.execBlock op word parity s
  | .unblock op word parity => Sys2Proof.Machine.execUnblock op word parity s
  | .retire op word parity => Sys2Proof.Machine.execRetire op word parity s
  | .flush op word parity => Sys2Proof.Machine.execFlush op word parity s
  | .flushAll op word parity => Sys2Proof.Machine.execFlushAll op word parity s
  | .loadClass op word parity => Sys2Proof.Machine.execLoadClass op word parity s
  | .loadFares op word parity => Sys2Proof.Machine.execLoadFares op word parity s
  | .copyActive op word parity => Sys2Proof.Machine.execCopyActive op word parity s
  | .switchTariff op word parity => Sys2Proof.Machine.execSwitchTariff op word parity s
  | .setRange op word parity => Sys2Proof.Machine.execSetRange op word parity s
  | .blockCheckFailed op word parity => Sys2Proof.Machine.execBlockCheckFailed op word parity s
  | .resumeRereadDone op word parity => Sys2Proof.Machine.execResumeRereadDone op word parity s
  | .blockReadFail op ending => Sys2Proof.Machine.execBlockReadFail op ending s
  | .abandonedReadEnd op ending => Sys2Proof.Machine.execAbandonedReadEnd op ending s
  | .statusWriteComplete op => Sys2Proof.Machine.execStatusWriteComplete op s
  | .statusWriteFail op ending => Sys2Proof.Machine.execStatusWriteFail op ending s
  | .coalesceWindowExpiry => Sys2Proof.Machine.execCoalesceWindowExpiry s
  | .clockAdvance => Sys2Proof.Machine.execClockAdvance s
  | .beatResponse op response => Sys2Proof.Machine.execBeatResponse op response s
  | .frameStart line => Sys2Proof.Machine.execFrameStart line s
  | .frameWithoutOpcode line => Sys2Proof.Machine.execFrameWithoutOpcode line s

end Sys2Proof.Machine
end

