-- ==== Sys2Proof/Safety.lean ====
section
/-! DEFINITION. What counts as a sound state of the device, in the terms claims use: the properties that a rule says hold
at all times, each as a test on the state. -/

namespace Sys2Proof.Machine

/-- R125: every class entry of a bank lies within its ranges. -/
def Bank.inRange (b : Bank) : Prop := ∀ c : ClassNo, (b.classEntry c).inRange = true

/-- R125: every class entry in either bank lies within its ranges. -/
def tariffInRange (s : State) : Prop := s.tariff.bankA.inRange ∧ s.tariff.bankB.inRange

/-- R12: Home Base is a whole multiple of 16 MiB. -/
def homeBaseAligned (s : State) : Prop := s.engine.homeBase.extractLsb' 0 24 = 0

/-- R60: at most four operations are in flight. -/
def portBounded (s : State) : Prop := s.port.inFlight.length ≤ 4

/-- The bytes taken by memory are in canonical form. -/
def memoryCanonical (s : State) : Prop := s.hostMem.wf = true

/-- R2, R8: a slot's balance is in range, its product list holds at most twelve entries, and an EMPTY record carries
none. -/
def Slot.sound (x : Slot) : Prop :=
  balanceInRange x.record.balance = true ∧ x.cells.length ≤ 12 ∧ (x.record.state = .empty → x.cells = [])

/-- R2: every slot is sound. -/
def recordsSound (s : State) : Prop := ∀ i : SlotNo, (s.slot i).sound

/-- R175: the phase is 0 to 999. -/
def phaseBounded (s : State) : Prop := s.clock.phase ≤ 999

/-- R184, R183: the threshold is 1 to 8, the window 0 to 1023, and the count held stays below the threshold. -/
def coalescingBounded (s : State) : Prop :=
  1 ≤ s.attn.threshold ∧ s.attn.threshold ≤ 8 ∧ s.attn.window ≤ 1023 ∧ s.attn.count < s.attn.threshold

/-- The invariants of the device's settings, clock, port, memory and coalescing taken together. -/
def settingsSound (s : State) : Prop :=
  tariffInRange s ∧ homeBaseAligned s ∧ portBounded s ∧ memoryCanonical s ∧ phaseBounded s ∧ coalescingBounded s

/-- The fields that the device's own work never reaches keep their values: clock, tariff, ranges, Last Watch, line flags,
Peek Window, register copies, bus slave, memory, Key Shape and Home Base, and the model's own counter and queue. -/
def keepsHost (s t : State) : Prop :=
  t.clock = s.clock ∧ t.tariff = s.tariff ∧ t.ranges = s.ranges ∧ t.lastWatch = s.lastWatch ∧
    t.lineEvents = s.lineEvents ∧ t.peek = s.peek ∧ t.copies = s.copies ∧ t.slave = s.slave ∧
    t.hostMem = s.hostMem ∧ t.freeIndex = s.freeIndex ∧ t.pending = s.pending ∧
    t.engine.keyShape = s.engine.keyShape ∧ t.engine.homeBase = s.engine.homeBase

/-- Lines, Change Unit, urgent registers and marks keep their values. -/
def keepsUnits (s t : State) : Prop :=
  t.lines = s.lines ∧ t.change = s.change ∧ t.urgent = s.urgent ∧ t.marks = s.marks

/-- The cache, the pool, the Tap Queue and the port keep their values. -/
def keepsCache (s t : State) : Prop :=
  t.slots = s.slots ∧ t.recency = s.recency ∧ t.slotWait = s.slotWait ∧ t.counts = s.counts ∧ t.pool = s.pool ∧
    t.taps = s.taps ∧ t.port = s.port

/-- The line takes part in the frame that a command stands for: it is enabled, and select is high or a frame without a
fixed reply is being received. -/
def receives (n : LineNo) (s : State) : Prop :=
  (s.line n).state ≠ .disabled ∧ ((s.line n).frame = .quiet ∨ (s.line n).frame = .receiving)

/-- The last word `w` of the BLOCK READ at place `i` arrives good for a READING unit, with a block that passes the checks
of R147 and carries command `c`; the read then stands as `o`. -/
def blockReady (c : ChangeCommand) (i : Nat) (w : Word) (p : BitVec 4) (s : State) (o : Op) : Prop :=
  blockArrives false i w p s = some o ∧ checkBlock (parseBlock o.words) = .ok c

/-- The account key of a block's identifier under the Key Shape in force. -/
def blockKey (o : Op) (s : State) : Key := keyOf s.engine.keyShape (parseBlock o.words).ident

/-- A record command's block is ready, its key's slot `k` is RESIDENT, and the record there passes the identity and state
check of R150. -/
def recordReady (c : ChangeCommand) (i : Nat) (w : Word) (p : BitVec 4) (k : SlotNo) (s : State) (o : Op) : Prop :=
  blockReady c i w p s o ∧ findResident (blockKey o s) s = some k ∧
    identityCheck c (parseBlock o.words).ident (s.slot k).record = none

/-- The Change Unit's STATUS WRITE of the block in progress joins the tail of the request list, and the unit is STORING
(R159). -/
def statusAsked (c : Status) (result : Word) (s t : State) : Prop :=
  t.change.state = .storing ∧ t.port.list = s.port.list ++ [.statusWrite s.change.blockAddr result (statusHalf c)]

/-- Every block but the clock stands at its reset values (R187), with the beats that the reset left outstanding on the bus
(R69) and the wire of each line as it stands. -/
def blocksReset (s t : State) : Prop :=
  t.engine = Engine.reset ∧ t.attn = Attention.reset ∧ (∀ i, t.slot i = Slot.unused) ∧ t.recency = [] ∧
    t.slotWait = [] ∧
    t.counts = { misses := 0, cleanEvictions := 0, dirtyEvictions := 0, rescues := 0, cleanerWrites := 0 } ∧
    t.pool.free = [] ∧ (∀ c, t.ctx c = none) ∧
    (∀ n, t.line n = Line.reset (if (s.line n).frame = .quiet then .quiet else .ignored)) ∧ t.lineEvents = 0 ∧
    t.port =
      { list := [], inFlight := [], stray := s.port.stray ++ s.port.inFlight.map Op.beat, lastFault := LastFault.none,
        faults := 0, late := 0 } ∧
    t.tariff.bankA = Bank.reset ∧ t.tariff.bankB = Bank.reset ∧ t.tariff.activeB = false ∧ t.tariff.epoch = 0 ∧
    t.tariff.view = { bankB := false, row := false, number := 0 } ∧ (∀ n, t.ranges.get n = RangeRule.reset) ∧
    t.lastWatch = LastWatch.reset ∧ t.change = ChangeUnit.reset ∧ t.urgent = Urgent.reset ∧
    (∀ m, t.marks.get m = none) ∧ t.peek = PeekWindow.cleared 0 ∧ t.copies = RegCopies.reset

/-- What a block's completion event leaves alone, beside the slot that its command is taken at: every other slot, the
lines, the Tap Queue, the slot-wait list, the urgent registers, and the fields of `keepsHost`. -/
def commandFrame (k : SlotNo) (s t : State) : Prop :=
  (∀ j, j ≠ k → t.slot j = s.slot j) ∧ t.lines = s.lines ∧ t.taps = s.taps ∧ t.slotWait = s.slotWait ∧
    t.urgent = s.urgent ∧ t.attn = s.attn ∧ t.counts = s.counts ∧ keepsHost s t

/-! ## Words that claims are stated with -/

/-- R179, R185: the Attention Controller after a raise: the flag set in STOPPED, RUNNING and DRAINING, no raise taken in
HELD and INITIALIZING. -/
def raised (x : Source) (s : State) : Attention :=
  if s.isOpen = true then { s.attn with pending := s.attn.pending ||| x.bit } else s.attn

/-- R79, Table 12.5: the TAP frame is good, and its direction byte names `d`. -/
def tapFrameGood (sequence direction : Byte) (issuer : BitVec 16) (serial : BitVec 40) (check : Byte)
    (d : Direction) : Prop :=
  check = xorBytes (tapBytes sequence direction issuer serial) ∧ directionOf direction = some d

/-- R83: line `n` takes a good TAP of this sequence and counts no overrun: it receives the frame, the TAP is no echo
(R80), and the line is IDLE, TAKEN, or READY with a FRAME_ERROR verdict. -/
def takesTap (n : LineNo) (sequence : Byte) (s : State) : Prop :=
  receives n s ∧ ((s.line n).lastSeq ≠ some sequence ∨ (s.line n).holdsFrameError = true) ∧
    ((s.line n).state = .idle ∨ (s.line n).state = .taken ∨
      ((s.line n).state = .ready ∧ (s.line n).holdsFrameError = true))

/-- R83: a line as the taking event leaves it before its verdict: sequence and count kept, the wire at rest. -/
def Line.took (l : Line) (sequence : Byte) : Line :=
  { l with frame := .quiet, verdict := none, lastSeq := some sequence, tapsTaken := satInc16 l.tapsTaken }

/-- R83, R84: a line READY with the verdict that the resolver delivered in the taking event. -/
def Line.answered (l : Line) (sequence : Byte) (v : Verdict) : Line :=
  { l.took sequence with state := .ready, ctx := none, verdict := some v, timer := none }

/-- R83, R88: a line IN_FLIGHT with context `c`, its deadline timer started at `now`. -/
def Line.waits (l : Line) (sequence : Byte) (c : CtxNo) (now : Word) : Line :=
  { l.took sequence with
    state := .inFlight, ctx := some c, timer := some { start := now, duration := 10 * l.config.deadline.toNat } }

/-- R99, R96: the free tap context with the lowest number is `c`. -/
def lowestFreeContext (c : CtxNo) (s : State) : Prop := s.ctx c = none ∧ ∀ c', c' < c → s.ctx c' ≠ none

/-- R100: the mark that the winning range rule leaves on a tap; none when the rule is a DENY. -/
def ruleMark (x : Ident) (s : State) : Option RuleMark :=
  match winningRule x s with
  | none => some .none
  | some r =>
    match (s.ranges.get r).action with
    | .deny => none
    | .cls => some (.cls (s.ranges.get r).cls)
    | .watch => some .watch

/-- R137: Last Watch and the Attention Controller after an arrival whose winning rule left the given mark. -/
def watched (n : LineNo) (x : Ident) (m : RuleMark) (s t : State) : Prop :=
  (m ≠ .watch → t.lastWatch = s.lastWatch ∧ t.attn = s.attn) ∧
    (m = .watch →
      t.attn = raised .watch s ∧
        ∃ r, winningRule x s = some r ∧ t.lastWatch = { valid := true, line := n, ident := x, rule := r })

/-- The fields that a tap reaches on no path keep their values: Change Unit, urgent registers, marks, engine, clock, tariff,
ranges, line flags, Peek Window, register copies, bus slave, memory, and the model's own counter and queue. -/
def tapFrame (s t : State) : Prop :=
  t.change = s.change ∧ t.urgent = s.urgent ∧ t.marks = s.marks ∧ t.engine = s.engine ∧ t.clock = s.clock ∧
    t.tariff = s.tariff ∧ t.ranges = s.ranges ∧ t.lineEvents = s.lineEvents ∧ t.peek = s.peek ∧
    t.copies = s.copies ∧ t.slave = s.slave ∧ t.hostMem = s.hostMem ∧ t.freeIndex = s.freeIndex ∧
    t.pending = s.pending

/-- R98: the context of the line's tap in flight is free and on no list; the other contexts, the order of the lists and
every other field of every slot but its pending deadline passes stand. -/
def tapWithdrawn (n : LineNo) (s t : State) : Prop :=
  (∀ c, (s.line n).ctx = some c →
    t.ctx c = none ∧ t.slotWait = s.slotWait.filter (· != .tap c) ∧
      ∀ i, t.slot i =
        { s.slot i with waiting := (s.slot i).waiting.filter (· != .tap c), passes := (t.slot i).passes }) ∧
    ((s.line n).ctx = none → t.slotWait = s.slotWait ∧ ∀ i, t.slot i = s.slot i) ∧
    ∀ c, (s.line n).ctx ≠ some c → t.ctx c = s.ctx c

/-- What a withdrawal leaves alone beside the lines: the cache's recency, counts and pool, the port, the Change Unit, the
urgent registers, the marks, and the fields of `keepsHost`. -/
def withdrawalFrame (s t : State) : Prop :=
  t.recency = s.recency ∧ t.counts = s.counts ∧ t.pool = s.pool ∧ t.port = s.port ∧ t.change = s.change ∧
    t.urgent = s.urgent ∧ t.marks = s.marks ∧ keepsHost s t

/-- R72, Table 12.7: the configuration that a LINE_CONFIG word names under a mode, with the given enabled field. -/
def configFrom (v : Word) (m : Mode) (enabled : Bool) : LineConfig :=
  { enabled := enabled, group := Fin.ofNat 8 (v.extractLsb' 4 3).toNat, mode := m, deadline := v.extractLsb' 16 8,
    accept := v[24] }

/-- R147, R159, R66: a block was taken and its STATUS WRITE asked for: the unit is STORING with the block, its link and
the given key; the read at place `i` is over and the STATUS WRITE is the last request of the list. -/
def blockCompletes (key : Key) (c : Status) (result : Word) (i : Nat) (o : Op) (s t : State) : Prop :=
  t.change =
      { s.change with
        state := .storing, block := parseBlock o.words, heldLink := (parseBlock o.words).link, key := key } ∧
    t.port =
      { s.port with
        list := s.port.list ++ [.statusWrite s.change.blockAddr result (statusHalf c)],
        inFlight := s.port.inFlight.eraseIdx i }

/-- R175, R178, R177: the state a millisecond later: time base and phase one higher, the phase turning over into the next
second at 1000, with DAY_ROLL raised where the second changes the day. -/
def millisecondLater (s : State) : State :=
  { s with
    clock :=
      { seconds := if 999 ≤ s.clock.phase then s.clock.seconds + 1 else s.clock.seconds,
        phase := if 999 ≤ s.clock.phase then 0 else s.clock.phase + 1, timeBase := s.clock.timeBase + 1 },
    attn :=
      if 999 ≤ s.clock.phase ∧ (s.clock.seconds + 1).toNat / 86400 ≠ s.clock.seconds.toNat / 86400 then
        raised .dayRoll s
      else s.attn }

/-- R64, R88, R183: no timer has run out. -/
def nothingDue (s : State) : Prop :=
  (∀ o, o ∈ s.port.inFlight → elapsedMs s o.started < 2) ∧
    (∀ n, deadlineDue n s = false) ∧ windowDue s = false

/-- R12, R16, R34, R38: the WRITE-BACK that the issue of slot `k`'s write asks for: its home record's address, and the image
of its record with the generation advanced. -/
def writeBackAsked (k : SlotNo) (s : State) : Request :=
  .writeBack k (s.slot k).key (s.engine.homeBase + ((s.slot k).key.zeroExtend 32 <<< 8))
    (bytesWords
      (encodeImage { (s.slot k).record with generation := (s.slot k).record.generation + 1 } (s.products k)))

/-- R33: the state after a clean eviction of slot `v`: the slot FREE and off the recency list, its cells returned in list
order, one clean eviction more. -/
def cleanlyEvicted (v : SlotNo) (s : State) : State :=
  { s with
    slots := s.slots.set v.val Slot.unused v.isLt, recency := s.recency.filter (· != v),
    pool := { s.pool with free := (s.slot v).cells.reverse ++ s.pool.free },
    counts := { s.counts with cleanEvictions := s.counts.cleanEvictions + 1 } }

/-- R34: the state after a dirty eviction of slot `k` with no requester: the slot EVICTING and off the recency list, its
eviction write asked for, one dirty eviction more. -/
def dirtilyEvicted (k : SlotNo) (s : State) : State :=
  { s with
    slots :=
      s.slots.set k.val
        { s.slot k with
          state := .evicting, waiting := [], rescued := false, dirty := false, wbFault := false, writeReqs := [],
          nextReqs := [],
          record := { (s.slot k).record with generation := (s.slot k).record.generation + 1 } }
        k.isLt,
    recency := s.recency.filter (· != k),
    counts := { s.counts with dirtyEvictions := s.counts.dirtyEvictions + 1 },
    port := { s.port with list := s.port.list ++ [writeBackAsked k s] } }

/-- R53: the clean eligible slot with cells, other than `own`, that stands nearest the tail of the recency list. -/
def cellVictim (own : SlotNo) (s : State) : Option SlotNo :=
  s.recency.reverse.find? fun k => k != own && (s.slot k).cleanEligible && !(s.slot k).cells.isEmpty

/-- R54: a dirty eligible slot with cells, at which an eviction for want of cells begins. -/
def yieldsCells (k : SlotNo) (s : State) : Prop := (s.slot k).dirtyEligible = true ∧ (s.slot k).cells ≠ []

/-- R191: a RESIDENT slot at which a drain in phase EMPTYING has work: no fault and no write in flight. -/
def Slot.drainsNow (x : Slot) : Prop := x.state = .resident ∧ x.wbFault = false ∧ x.writeInFlight = false

/-- R44, R190, R191, R40: of the tests at the end of an event none but the port's is due. -/
def onlyPortDue (s : State) : Prop :=
  reclaimDue s = false ∧ evictAllDue s = false ∧ drainDue s = false ∧ cleanerDue s = false ∧
    (s.engine.state = .draining → s.engine.phase = .emptying → ∀ i, ¬ (s.slot i).drainsNow)

/-- R60: a request as it begins at a time base of `now`. -/
def begunAt (now : Word) (q : Request) : Op := { request := q, started := now, words := [], acked := 0 }

/-- R148: the record commands. -/
def recordCommands : List ChangeCommand :=
  [.enroll, .amend, .adjust, .addProduct, .removeProduct, .block, .unblock, .retire, .flush]

/-- The command of the table at which a block's last word arrives with a given change command (R147). -/
def ChangeCommand.instr (c : ChangeCommand) (op : Nat) (w : Word) (p : BitVec 4) : Instr :=
  match c with
  | .nop => .nop op w p
  | .enroll => .enroll op w p
  | .amend => .amend op w p
  | .adjust => .adjust op w p
  | .addProduct => .addProduct op w p
  | .removeProduct => .removeProduct op w p
  | .block => .block op w p
  | .unblock => .unblock op w p
  | .retire => .retire op w p
  | .flush => .flush op w p
  | .flushAll => .flushAll op w p
  | .setRange => .setRange op w p
  | .loadClass => .loadClass op w p
  | .loadFares => .loadFares op w p
  | .copyActive => .copyActive op w p
  | .switchTariff => .switchTariff op w p

/-- R6: an entry is valid on the day of a resolution. -/
def validToday (v : TapView) (p : ProductEntry) : Prop :=
  p.firstDay.toNat ≤ v.now.toNat / 86400 ∧ v.now.toNat / 86400 ≤ p.lastDay.toNat

/-- R116: an entry is valid today and its zone mask holds both the record's entry group and the tap's gate group. -/
def coversBoth (v : TapView) (r : Record) (p : ProductEntry) : Prop :=
  validToday v p ∧ p.zoneMask.getLsbD r.entryGroup.val = true ∧ p.zoneMask.getLsbD v.group.val = true

/-- R39, R40: the cache counts after the end of a slot's flush-type write, which a cleaner write leaves one lower. -/
def writeCounted (x : Slot) (s : State) : CacheCounts :=
  if x.cleaner = true then { s.counts with cleanerWrites := s.counts.cleanerWrites - 1 } else s.counts

/-- R35: a slot owed an eviction is written again as its eviction write: its flags clear, its generation one higher, those
who waited for the next write its requesters; `counts` are the counts before that write. -/
def writtenAgain (i : SlotNo) (counts : CacheCounts) (s t : State) : Prop :=
  t.slot i =
      { s.slot i with
        writeInFlight := false, cleaner := false, dirty := false, wbFault := false,
        writeReqs := (s.slot i).nextReqs, nextReqs := [],
        record := { (s.slot i).record with generation := (s.slot i).record.generation + 1 } } ∧
    t.counts = { counts with dirtyEvictions := counts.dirtyEvictions + 1 } ∧
    t.port.list = s.port.list ++ [writeBackAsked i s] ∧ t.pool = s.pool ∧ (∀ k, k ≠ i → t.slot k = s.slot k) ∧
    keepsUnits s t

/-- A fetch at place `j` for slot `i`. -/
def fetchAt (j : Nat) (i : SlotNo) (o : Op) (s : State) : Prop :=
  s.op j = some o ∧ ∃ k a, o.request = .fetch i k a

/-- A fetch at place `j` for slot `i` that has read 45 words; its 46th comes next. -/
def fetchAwaitsLast (j : Nat) (i : SlotNo) (o : Op) (s : State) : Prop :=
  s.op j = some o ∧ o.request.kind = .fetch ∧ o.words.length = 45 ∧ ∃ k a, o.request = .fetch i k a

/-- A write-back at place `j` of slot `i` of which 45 beats are acknowledged; the 46th is outstanding. -/
def writeAwaitsLast (j : Nat) (i : SlotNo) (o : Op) (s : State) : Prop :=
  s.op j = some o ∧ o.acked = 45 ∧ ∃ k a image, o.request = .writeBack i k a image

/-- R67: the port after the operation at place `j` ended with a fault, `stray` the beats it leaves on the bus. -/
def portFaulted (j : Nat) (q : Request) (out : OpOutcome) (stray : List Beat) (s : State) : Port :=
  { s.port with
    inFlight := s.port.inFlight.eraseIdx j, stray := s.port.stray ++ stray,
    lastFault := { kind := some q.kind, place := q.place, outcome := out }, faults := satInc16 s.port.faults }

/-- R63: the word of a cut-off write beat was taken by memory, or was not. -/
def tookOrNot (b : Beat) (s t : State) : Prop := t.hostMem = s.hostMem ∨ t.hostMem = s.hostMem.takeBeat b

end Sys2Proof.Machine
end

