-- ==== Sys2Proof/Certificates/Slice0/Obligations.lean ====
section
/-! DEFINITION. The statements for the provers. -/

open Sys2Proof Sys2Proof.Machine

/-! ## The machine -/

/-- A step takes the command at the front of the queue and runs it on the state with the queue's rest. On an empty queue
the expiries that are due come, one millisecond passes (R175, R178; that it passes there, and the order of the expiries,
are the model's: log entries 1 and 2), and an initialisation under way has ended by then (R188; that the tick ends it is
the model's: log entry 20). With nothing due, the time base and the phase rise by one and the phase turns over into the
next second, and nothing else changes but DAY_ROLL. -/
def Obligations.StepRunsFrontCommand : Prop :=
  (∀ (c : Instr) (rest : List Instr) (s : State), s.pending = c :: rest →
     step s = exec c { s with pending := rest }) ∧
  ∀ s : State, s.pending = [] →
    step s = exec .initialisationComplete (millisecondLater (dueEvents s)) ∧
      (nothingDue s →
        let t : State :=
          { s with
            clock :=
              { seconds := if s.clock.phase < 999 then s.clock.seconds else s.clock.seconds + 1,
                phase := if s.clock.phase < 999 then s.clock.phase + 1 else 0, timeBase := s.clock.timeBase + 1 },
            attn :=
              if 999 ≤ s.clock.phase ∧ (s.clock.seconds + 1).toNat / 86400 ≠ s.clock.seconds.toNat / 86400 then
                raised .dayRoll s
              else s.attn }
        step s = exec .initialisationComplete t ∧ (s.engine.state ≠ .initializing → step s = .next t))

/-- Every command answers a next state, but a register write outside the window, at an offset of 660h or more or off a
word boundary, and every such write stops (log entry 16). -/
def Obligations.OnlyAnAccessOutsideTheWindowStops : Prop :=
  (∀ (c : Instr) (s : State),
    (∃ t, exec c s = .next t) ∨
      ∃ off v, c = .registerWrite off v ∧ (0x660 ≤ off ∨ off % 4 ≠ 0) ∧
        exec c s = .fault (.noSuchRegister off)) ∧
  ∀ (off : Nat) (v : Word) (s : State),
    (0x660 ≤ off ∨ off % 4 ≠ 0 → exec (.registerWrite off v) s = .fault (.noSuchRegister off)) ∧
      (off < 0x660 → off % 4 = 0 → ∃ t, exec (.registerWrite off v) s = .next t)

/-- The tests at the end of an event (R44, R190, R191, R40, R60; their order is the model's: log entry 4). Whatever they
start from, they leave no request that could begin, no entry of the slot-wait list beside a clean victim, no cleaner
write and no drain event to be made, and never reach the lines, the Change Unit, the urgent registers, the marks or the
host's own fields. The row of each test runs them when its test is the first one due. With none due, they begin the
requests that have room in flight and do nothing else. While the engine is RUNNING and no request waits for a slot, a
slot changes by the issue of its cleaner write alone; while a drain is EMPTYING and no request waits for a slot, each
slot is freed, written or left as R191 gives. -/
def Obligations.TestsAtTheEndOfAnEvent : Prop :=
  (∀ s : State, keepsHost s (settle s) ∧ keepsUnits s (settle s)) ∧
  (∀ s : State,
     ((settle s).port.list = [] ∨ 4 ≤ (settle s).port.inFlight.length) ∧
     ((settle s).slotWait = [] ∨ victim Slot.cleanEligible (settle s) = none) ∧
     ((settle s).running = true →
       2 ≤ (settle s).counts.cleanerWrites ∨
         16 ≤ slotCount (fun x => x.state == .free || x.cleanEligible) (settle s) ∨
         victim Slot.dirtyEligible (settle s) = none) ∧
     evictAllDue (settle s) = false ∧ drainDue (settle s) = false ∧
     ((settle s).engine.state = .draining → (settle s).engine.phase = .emptying →
       ∀ i, ¬ ((settle s).slot i).drainsNow)) ∧
  (∀ s : State,
     (reclaimDue s = true → exec .reclaim s = .next (settle s)) ∧
     (reclaimDue s = false → evictAllDue s = true → exec .evictAll s = .next (settle s)) ∧
     (drainDue s = true → exec .drainComplete s = .next (settle s)) ∧
     (reclaimDue s = false → cleanerDue s = true → exec .cleanerWrite s = .next (settle s))) ∧
  (∀ s : State, onlyPortDue s →
     let room := 4 - s.port.inFlight.length
     settle s =
       { s with
         port :=
           { s.port with
             list := s.port.list.drop room,
             inFlight := s.port.inFlight ++ (s.port.list.take room).map (begunAt s.clock.timeBase) } }) ∧
  (∀ s : State, s.running = true → s.slotWait = [] →
     (∀ i,
       (settle s).slot i = s.slot i ∨
         ((s.slot i).dirtyEligible = true ∧
           (settle s).slot i =
             { s.slot i with
               record := { (s.slot i).record with generation := (s.slot i).record.generation + 1 }, dirty := false,
               wbFault := false, writeInFlight := true, cleaner := true, writeReqs := [], nextReqs := [] })) ∧
       (settle s).recency = s.recency ∧ (settle s).slotWait = [] ∧ (settle s).pool = s.pool ∧
       (settle s).taps = s.taps ∧ (settle s).attn = s.attn ∧ (settle s).engine = s.engine) ∧
  ∀ (s : State) (i : SlotNo), s.engine.state = .draining → s.engine.phase = .emptying → s.slotWait = [] →
    (settle s).slot i =
      if (s.slot i).cleanEligible = true then Slot.unused
      else if (s.slot i).dirtyEligible = true then
        { s.slot i with
          state := .evicting, waiting := [], rescued := false, dirty := false, wbFault := false, writeReqs := [.drain],
          nextReqs := [],
          record := { (s.slot i).record with generation := (s.slot i).record.generation + 1 } }
      else s.slot i

/-! ## Engine and clock -/

/-- R187: POWER_ON and HOLD give every block its reset values in one event; HOLD leaves the clock running, POWER_ON sets
it to 0. The queue of waiting commands is the model's own and stands (log entry 19), and so are the values of fields that
hold nothing after a reset (log entry 14) and the wires of the lines (log entry 15). -/
def Obligations.ResetsGiveEveryBlockItsResetValues : Prop :=
  ∀ s : State,
    (∃ t, exec .hold s = .next t ∧ blocksReset s t ∧ t.clock = s.clock ∧ t.pending = s.pending) ∧
      ∃ t, exec .powerOn s = .next t ∧ blocksReset s t ∧
        t.clock = { seconds := 0, phase := 0, timeBase := 0 } ∧ t.pending = s.pending

/-- R188, R186: RELEASE in HELD begins initialisation and is ignored elsewhere; the completion event rebuilds the pool,
stands every slot and context free, and enters STOPPED. -/
def Obligations.ReleaseAndInitialisation : Prop :=
  ∀ s : State,
    (s.engine.state = .held →
      exec .release s = .next { s with engine := { s.engine with state := .initializing } }) ∧
    (s.engine.state ≠ .held → exec .release s = .next s) ∧
    (s.engine.state = .initializing →
      ∃ t, exec .initialisationComplete s = .next t ∧ t.engine = { s.engine with state := .stopped } ∧
        t.pool.free = List.finRange 1024 ∧ (∀ i, t.slot i = Slot.unused) ∧ t.recency = [] ∧ t.slotWait = [] ∧
        (∀ c, t.ctx c = none) ∧ t.attn = s.attn ∧ t.port = s.port ∧ t.counts = s.counts ∧ keepsUnits s t ∧
        keepsHost s t)

/-- R189, R190, R144, R191: RUN in STOPPED enters RUNNING, STOP in RUNNING enters DRAINING in phase ENDING and sets the
pending stop of a unit with a block in progress; elsewhere both are ignored. Drain completes in STOPPED, with the
unflushed count and DRAIN_DONE. -/
def Obligations.RunStopAndDrainEnd : Prop :=
  (∀ s : State,
     (s.engine.state = .stopped → exec .run s = .next (settle { s with engine := { s.engine with state := .running } })) ∧
     (s.engine.state ≠ .stopped → exec .run s = .next s) ∧
     (s.engine.state = .running →
       exec .stop s =
         .next
           (settle
             { s with
               engine := { s.engine with state := .draining, phase := .ending },
               change :=
                 { s.change with
                   stop := if s.change.busy = true ∧ s.change.stop = .none then .suspend else s.change.stop } })) ∧
     (s.engine.state ≠ .running → exec .stop s = .next s)) ∧
  (∀ s : State, drainDue s = true →
     exec .drainComplete s =
       .next
         (settle
           { s with
             engine :=
               { s.engine with
                 state := .stopped, phase := .none,
                 unflushed := slotCount (fun x => x.state == .resident && x.wbFault) s },
             attn := { s.attn with pending := s.attn.pending ||| 0x800#12 } }))

/-- R45: the evict-all event, when its condition holds and no request waits for a slot: each RESIDENT slot is left,
freed, written or owed an eviction as the table gives, in increasing slot number, before the tests at the end of the
event: the write-backs join the request list and the cells return to the free-cell list in that order, and each eviction
is counted. -/
def Obligations.EvictAllTreatsEverySlot : Prop :=
  ∀ s : State, evictAllDue s = true → s.slotWait = [] →
    let clean := allSlots.filter fun k => (s.slot k).cleanEligible
    let dirty := allSlots.filter fun k => (s.slot k).dirtyEligible
    ∃ t, exec .evictAll s = .next (settle t) ∧ t.engine = { s.engine with phase := .emptying } ∧ keepsUnits s t ∧
      keepsHost s t ∧ t.taps = s.taps ∧ t.attn = s.attn ∧ t.slotWait = [] ∧
      t.port = { s.port with list := s.port.list ++ dirty.map fun k => writeBackAsked k s } ∧
      t.pool = { s.pool with free := (clean.flatMap fun k => (s.slot k).cells).reverse ++ s.pool.free } ∧
      t.counts =
        { s.counts with
          cleanEvictions := s.counts.cleanEvictions + BitVec.ofNat 16 clean.length,
          dirtyEvictions := s.counts.dirtyEvictions + BitVec.ofNat 16 dirty.length } ∧
      t.recency = (s.recency.filter fun k => (s.slot k).state != .resident || (s.slot k).wbFault) ∧
      ∀ i,
        ((s.slot i).state ≠ .resident ∨ (s.slot i).wbFault = true → t.slot i = s.slot i) ∧
        ((s.slot i).cleanEligible = true → t.slot i = Slot.unused) ∧
        ((s.slot i).dirtyEligible = true →
          t.slot i =
            { s.slot i with
              state := .evicting, waiting := [], rescued := false, dirty := false, wbFault := false,
              writeReqs := [.drain], nextReqs := [],
              record := { (s.slot i).record with generation := (s.slot i).record.generation + 1 } }) ∧
        ((s.slot i).state = .resident → (s.slot i).wbFault = false → (s.slot i).writeInFlight = true →
          t.slot i =
            { s.slot i with
              state := .evicting, waiting := [], rescued := false, nextReqs := (s.slot i).nextReqs ++ [.drain] })

/-- R11, R12: KEY_SHAPE and HOME_BASE are taken in STOPPED alone, KEY_SHAPE with every slot FREE, HOME_BASE for a
multiple of 16 MiB; every other write is ignored. A KEY_SHAPE value above 8 leaves a value that the spec does not state
(log entry 9). -/
def Obligations.KeyShapeAndHomeBaseWrites : Prop :=
  ∀ (s : State) (v : Word),
    (s.engine.state = .stopped → (∀ i, (s.slot i).state = .free) →
      (∀ k : Fin 9, v.toNat = k.val →
        exec (.keyShapeWrite v) s = .next { s with engine := { s.engine with keyShape := k } }) ∧
      (8 < v.toNat →
        ∃ k : Fin 9,
          exec (.keyShapeWrite v) s =
            .next { s with engine := { s.engine with keyShape := k }, freeIndex := s.freeIndex + 1 })) ∧
    (s.engine.state ≠ .stopped ∨ (∃ i, (s.slot i).state ≠ .free) → exec (.keyShapeWrite v) s = .next s) ∧
    (s.engine.state = .stopped → v.extractLsb' 0 24 = 0 →
      exec (.homeBaseWrite v) s = .next { s with engine := { s.engine with homeBase := v } }) ∧
    (s.engine.state ≠ .stopped ∨ v.extractLsb' 0 24 ≠ 0 → exec (.homeBaseWrite v) s = .next s)

/-- R176: a write of STATION_CLOCK sets the seconds count and begins a new second, in every engine state; no stamp and no
timer moves. -/
def Obligations.StationClockWrite : Prop :=
  ∀ (s : State) (v : Word),
    exec (.stationClockWrite v) s =
      .next { s with clock := { seconds := v, phase := 0, timeBase := s.clock.timeBase } }

/-- R175, R177: the advance raises the seconds count by one, wrapping, and raises DAY_ROLL when the day number changes
and the Attention Controller takes raises: in HELD and INITIALIZING it advances too, raises nothing, and leaves the
engine as it stands. That the millisecond itself passes in this event, after the expiries that are due, is the model's
(log entry 23). -/
def Obligations.ClockAdvance : Prop :=
  ∀ s : State,
    (s.clock.phase = 999 → exec .clockAdvance s = .next (millisecondLater (dueEvents s))) ∧
    (s.clock.phase = 999 → nothingDue s →
      exec .clockAdvance s =
        .next
          { s with
            clock := { seconds := s.clock.seconds + 1, phase := 0, timeBase := s.clock.timeBase + 1 },
            attn :=
              if (s.clock.seconds + 1).toNat / 86400 ≠ s.clock.seconds.toNat / 86400 then raised .dayRoll s
              else s.attn }) ∧
    (s.clock.phase = 999 → nothingDue s → s.isOpen = false →
      exec .clockAdvance s =
        .next
          { s with
            clock :=
              { seconds := s.clock.seconds + 1, phase := 0, timeBase := s.clock.timeBase + 1 } }) ∧
    (s.clock.phase ≠ 999 → exec .clockAdvance s = .next s)

/-! ## Attention -/

/-- R181: a read of ATTN_CAUSE returns, and clears, the pending source of the highest level, the lowest code among
equals; 0 when no pending source has a level of 1 or more. -/
def Obligations.CauseReadTakesTheHighestSource : Prop :=
  ∀ s : State,
    ((∀ x, s.attn.isPending x = true → s.attn.level x = 0) → exec .attnCauseRead s = .next { s with slave := 0 }) ∧
    ∀ x, s.attn.isPending x = true → 1 ≤ s.attn.level x →
      (∀ y, s.attn.isPending y = true →
        s.attn.level y < s.attn.level x ∨ (s.attn.level y = s.attn.level x ∧ x.code ≤ y.code)) →
      exec .attnCauseRead s =
        .next
          { s with
            slave := BitVec.ofNat 32 x.code,
            attn := { s.attn with pending := s.attn.pending &&& ~~~(1#12 <<< (x.code - 1)) } }

/-- R182: a read of ATTN_PENDING returns the twelve flags, the lowest code in bit 0; a write clears each flag written as
1 and leaves the others and the coalescing state, and is ignored in HELD and INITIALIZING; a read of ATTN_CAUSE, too,
leaves the coalescing state. -/
def Obligations.AttnPendingReadAndWrite : Prop :=
  ∀ (s : State) (v : Word),
    regRead s 0x024 = s.attn.pending.zeroExtend 32 ∧
    (∀ x : Source, s.attn.isPending x = (regRead s 0x024).getLsbD (x.code - 1)) ∧
    (s.isOpen = true →
      exec (.attnPendingWrite v) s =
        .next { s with attn := { s.attn with pending := s.attn.pending &&& ~~~(v.extractLsb' 0 12) } }) ∧
    (s.isOpen = false → exec (.attnPendingWrite v) s = .next s) ∧
    ∃ t, exec .attnCauseRead s = .next t ∧ t.attn = { s.attn with pending := t.attn.pending }

/-- R180: ATTN_LEVEL holds two bits for each source, 0 after power-on and HOLD; a write sets all twelve, in STOPPED,
RUNNING and DRAINING alone; a raise sets its flag whatever the level; the interrupt output is asserted exactly while a
pending source has a level of 1 or more. -/
def Obligations.AttnLevelsAndInterruptOutput : Prop :=
  ∀ (s : State) (v : Word),
    (∃ t, exec .hold s = .next t ∧ t.attn.levels = 0) ∧ (∃ t, exec .powerOn s = .next t ∧ t.attn.levels = 0) ∧
    (s.isOpen = true →
      exec (.attnLevelWrite v) s = .next { s with attn := { s.attn with levels := v.extractLsb' 0 24 } }) ∧
    (s.isOpen = false → exec (.attnLevelWrite v) s = .next s) ∧
    (∀ x : Source, s.attn.level x = s.attn.levels.toNat / 4 ^ (x.code - 1) % 4) ∧
    (∀ x : Source, s.isOpen = true → (raise x s).attn.isPending x = true ∧ (raise x s).attn.levels = s.attn.levels) ∧
    (s.attn.irq = true ↔ ∃ x, s.attn.isPending x = true ∧ 1 ≤ s.attn.level x)

/-- R183, R184, R160, Table 10.3: a completion with its I flag set signals CHG_DONE, at once in QUIET, which begins
HOLDING when the window is above 0, and held back in HOLDING until the threshold is reached; the window's expiry
releases a count held or returns to QUIET; a write of ATTN_COALESCE in range ends HOLDING and sets threshold and window.
A write of the register's word acts on its threshold and window alone, and a read shows threshold, window, state and
count, wherever the fields stand (their places are free: log entry 10). -/
def Obligations.CompletionsAreCoalesced : Prop :=
  (∀ (s : State) (v : Word),
     exec (.registerWrite 0x02C v) s = exec (.attnCoalesceWrite (coalesceThreshold v) (coalesceWindow v)) s ∧
       (coalescingBounded s →
         coalesceThreshold (regRead s 0x02C) = s.attn.threshold ∧ coalesceWindow (regRead s 0x02C) = s.attn.window ∧
           coalesceHolding (regRead s 0x02C) = s.attn.holding ∧ coalesceCount (regRead s 0x02C) = s.attn.count)) ∧
  (∀ (s : State) (t w : Nat),
     (s.isOpen = true → 1 ≤ t → t ≤ 8 → w ≤ 1023 →
       exec (.attnCoalesceWrite t w) s =
         .next
           { s with
             attn :=
               { s.attn with
                 pending :=
                   if s.attn.holding = true ∧ 0 < s.attn.count then s.attn.pending ||| 1#12 else s.attn.pending,
                 threshold := t, window := w, holding := false, count := 0 } }) ∧
     (s.isOpen = false ∨ t = 0 ∨ 8 < t ∨ 1023 < w → exec (.attnCoalesceWrite t w) s = .next s)) ∧
  (∀ s : State, s.isOpen = true → s.attn.holding = true → s.attn.window ≤ elapsedMs s s.attn.windowStart →
     (0 < s.attn.count →
       exec .coalesceWindowExpiry s =
         .next
           { s with
             attn :=
               { s.attn with pending := s.attn.pending ||| 1#12, count := 0, windowStart := s.clock.timeBase } }) ∧
     (s.attn.count = 0 → exec .coalesceWindowExpiry s = .next { s with attn := { s.attn with holding := false } })) ∧
  (∀ s : State, s.isOpen = true →
     (s.attn.holding = false →
       signalChgDone s =
         { s with
           attn :=
             if s.attn.window = 0 then { s.attn with pending := s.attn.pending ||| 1#12 }
             else
               { s.attn with
                 pending := s.attn.pending ||| 1#12, holding := true, count := 0,
                 windowStart := s.clock.timeBase } }) ∧
     (s.attn.holding = true → s.attn.count + 1 < s.attn.threshold →
       signalChgDone s = { s with attn := { s.attn with count := s.attn.count + 1 } }) ∧
     (s.attn.holding = true → s.attn.threshold ≤ s.attn.count + 1 →
       signalChgDone s =
         { s with
           attn :=
             { s.attn with
               pending := s.attn.pending ||| 1#12, count := 0, windowStart := s.clock.timeBase } }) ∧
     ∀ (i : Nat) (o : Op) (a result : Word) (h : Half), s.op i = some o → o.request = .statusWrite a result h →
       o.acked = 1 → s.change.block.flagI = true →
       ∃ t, exec (.statusWriteComplete i) s = .next (settle t) ∧ t.change.last = s.change.blockAddr ∧
         (t.attn.pending &&& 0x001#12 = (signalChgDone s).attn.pending &&& 0x001#12) ∧
         t.attn.holding = (signalChgDone s).attn.holding ∧ t.attn.count = (signalChgDone s).attn.count)

/-! ## The register window -/

/-- R197: a read of the lowest word of a multi-word register answers with it and takes the copy that the other words are
then read from; nothing else changes. R71: a read of any offset drives the register's value with odd parity on each byte
lane. R196, Tables 12.7 and 12.8: what a read of each register shows, its fields at their places with their codes
(ATTN_COALESCE apart, which CompletionsAreCoalesced states; log entry 10); a read of ATTN_CAUSE drives the code of the
source it clears, or 0 and clears none; a register of access W and an offset assigned to no register read 0. What a
field shows while the thing it describes is absent (the last sequence, a free mark entry, a free context) is the model's
0 (log entry 25). -/
def Obligations.ReadsShowTheRegisters : Prop :=
  (∀ (s : State) (off : Nat) (lane : Fin 4),
     (slaveDrives s off).1 = regRead s off ∧
       ((List.range 8).countP (fun b => (regRead s off).getLsbD (8 * lane.val + b)) +
           ((slaveDrives s off).2.getLsbD lane.val).toNat) % 2 = 1) ∧
  (∀ s : State,
     (∀ r, exec (.multiwordLowestRead r) s = .next { s with slave := lowestWord r s, copies := takeCopy r s }) ∧
     (∃ t, exec (.multiwordLowestRead .stationClock) s = .next t ∧ t.slave = s.clock.seconds ∧
       regRead t 0x014 = BitVec.ofNat 32 s.clock.phase ∧
       regRead t 0x018 = BitVec.ofNat 32 (s.clock.seconds.toNat / 86400)) ∧
     (∃ t, exec (.multiwordLowestRead .lastFault) s = .next t ∧ regRead t 0x084 = s.port.lastFault.place) ∧
     (∃ t, exec (.multiwordLowestRead .tariffView) s = .next t ∧
       ∀ j : Fin 4, regRead t (0x0A0 + 4 * j.val) = viewWord s.tariff j) ∧
     (∃ t, exec (.multiwordLowestRead .lastWatch) s = .next t ∧
       regRead t 0x0B4 = s.lastWatch.ident.extractLsb' 0 32 ∧
       regRead t 0x0B8 = (s.lastWatch.ident.extractLsb' 32 24).zeroExtend 32) ∧
     (∀ n : Fin 16, ∃ t, exec (.multiwordLowestRead (.rangeRule n)) s = .next t ∧
       regRead t (0x104 + 16 * n.val) = (s.ranges.get n).base.extractLsb' 0 32 ∧
       regRead t (0x108 + 16 * n.val) = ((s.ranges.get n).base.extractLsb' 32 24).zeroExtend 32 ∧
       regRead t (0x10C + 16 * n.val) = 0) ∧
     (∀ (m : Fin 16) (x : Ident), s.marks.get m = some x →
       ∃ t, exec (.multiwordLowestRead (.blockMark m)) s = .next t ∧
         regRead t (0x204 + 8 * m.val) = x.extractLsb' 24 32) ∧
     ∀ c x, s.ctx c = some x →
       ∃ t, exec (.multiwordLowestRead (.tapqStatus c)) s = .next t ∧
         regRead t (0x604 + 8 * c.val) = BitVec.ofNat 32 (min 65535 (elapsedMs s x.arrival))) ∧
  (∀ s : State,
     let shows (off n : Nat) : Prop := regRead s off = BitVec.ofNat 32 n
     let bit (b : Bool) (pos : Nat) : Nat := if b = true then 2 ^ pos else 0
     shows 0x004
         ((match s.engine.state with
             | .held => 0 | .initializing => 1 | .stopped => 2 | .running => 3 | .draining => 4) +
           bit (s.engine.state == .stopped) 4 +
           (match s.engine.phase with | .none => 0 | .ending => 1 | .emptying => 2) * 2 ^ 8 +
           s.engine.unflushed * 2 ^ 16) ∧
       shows 0x008 s.engine.keyShape.val ∧ regRead s 0x00C = s.engine.homeBase ∧
       regRead s 0x010 = s.clock.seconds ∧ regRead s 0x024 = s.attn.pending.zeroExtend 32 ∧
       regRead s 0x028 = s.attn.levels.zeroExtend 32 ∧
       exec .attnCauseRead s =
         .next
           { s with
             slave := regRead s 0x020,
             attn :=
               if regRead s 0x020 = 0 then s.attn
               else
                 { s.attn with
                   pending := s.attn.pending &&& ~~~(1#12 <<< ((regRead s 0x020).toNat - 1)) } } ∧
       regRead s 0x030 = s.change.listAddr ∧
       shows 0x038
         ((match s.change.state with
             | .idle => 0 | .reading => 1 | .waiting => 2 | .storing => 3 | .suspended => 4 | .halted => 5) +
           (match s.change.stop with | .none => 0 | .suspend => 1 | .abort => 2) * 2 ^ 4 +
           bit s.change.abandoned 8 + bit s.change.refused 9) ∧
       regRead s 0x03C = s.change.blockAddr ∧
       regRead s 0x040 = (s.change.last &&& ~~~7#32) ||| (if s.change.lastValid = true then 1 else 0) ∧
       regRead s 0x048 = s.urgent.arg.extractLsb' 0 32 ∧
       regRead s 0x04C = (s.urgent.arg.extractLsb' 32 24).zeroExtend 32 ∧
       shows 0x054
         ((match s.urgent.state with | .idle => 0 | .busy => 1 | .done => 2) + bit s.urgent.lost 2 +
           (match s.urgent.result with
             | .none => 0 | .applied => 1 | .marked => 2 | .already => 3 | .full => 4 | .removed => 5
             | .absent => 6 | .ok => 7 | .notResident => 8 | .memFault => 9 | .clean => 10 | .notFaulted => 11
             | .badCommand => 12) * 2 ^ 4 +
           (match s.urgent.command with | some code => code.toNat % 256 | none => 0) * 2 ^ 8 +
           s.urgent.value.toNat * 2 ^ 16) ∧
       shows 0x058 (s.marks.toList.countP (·.isSome)) ∧ shows 0x060 s.counts.misses.toNat ∧
       shows 0x064 s.counts.cleanEvictions.toNat ∧ shows 0x068 s.counts.dirtyEvictions.toNat ∧
       shows 0x06C s.counts.rescues.toNat ∧ shows 0x070 (s.slots.toList.countP fun x => x.state == .free) ∧
       shows 0x074 (s.slots.toList.countP (·.dirty)) ∧ shows 0x078 (s.slots.toList.countP (·.wbFault)) ∧
       shows 0x07C s.pool.free.length ∧
       shows 0x080
         ((match s.port.lastFault.kind with
             | none => 0 | some .fetch => 1 | some .writeBack => 2 | some .blockRead => 3
             | some .statusWrite => 4) +
           (match s.port.lastFault.outcome with
             | .ok => 0 | .busError => 1 | .parity => 2 | .timeout => 3) * 2 ^ 4) ∧
       shows 0x088 s.port.faults.toNat ∧ shows 0x08C s.port.late.toNat ∧
       shows 0x090 (s.port.list.length + s.port.inFlight.length * 2 ^ 16) ∧
       shows 0x094 (bit s.tariff.activeB 0 + s.tariff.epoch.toNat * 2 ^ 8) ∧
       shows 0x098
         (bit s.tariff.view.bankB 0 + bit s.tariff.view.row 4 + s.tariff.view.number.val * 2 ^ 8) ∧
       shows 0x0B0
         (bit s.lastWatch.valid 0 + s.lastWatch.line.val * 2 ^ 8 + s.lastWatch.rule.val * 2 ^ 16) ∧
       shows 0x0C0 (allCtxs.countP fun c => (s.ctx c).isNone) ∧ shows 0x0C4 s.lineEvents.toNat ∧
       (∀ off, off ∈ [0x000, 0x034, 0x050, 0x01C, 0x044, 0x05C, 0x09C, 0x0BC] → regRead s off = 0) ∧
       (∀ off, 0x0C8 ≤ off → off < 0x100 ∨ (0x280 ≤ off ∧ off < 0x300) ∨ (0x3BC ≤ off ∧ off < 0x400) →
         regRead s off = 0)) ∧
  (∀ s : State,
     let bit (b : Bool) (pos : Nat) : Nat := if b = true then 2 ^ pos else 0
     let bank : Bank := if s.tariff.view.bankB = true then s.tariff.bankB else s.tariff.bankA
     let item : List Half :=
       if s.tariff.view.row = true then (bank.fares.get s.tariff.view.number).toList
       else
         let e := bank.classes.get s.tariff.view.number
         [e.minEntry, e.overdraft, e.percent, e.unmatched, e.passback, e.burst, e.refill, e.maxTrip]
     (∀ j : Fin 4, viewWord s.tariff j = item.getD (2 * j.val + 1) 0 ++ item.getD (2 * j.val) 0) ∧
       regRead s 0x0A0 = viewWord s.tariff 0 ∧
       (∀ n : Fin 16,
         let r := s.ranges.get n
         regRead s (0x100 + 16 * n.val) =
           BitVec.ofNat 32
             (r.level.val + r.exponent.val * 2 ^ 8 +
               (match r.action with | .deny => 0 | .cls => 1 | .watch => 2) * 2 ^ 16 + r.cls.val * 2 ^ 24)) ∧
       (∀ m : Fin 16,
         regRead s (0x200 + 8 * m.val) =
           match s.marks.get m with
           | some x => BitVec.ofNat 32 (1 + x.toNat % 2 ^ 24 * 2 ^ 8)
           | none => 0) ∧
       regRead s 0x300 =
         BitVec.ofNat 32
           (bit s.peek.valid 0 + bit s.peek.dirty 1 + bit s.peek.writeInFlight 2 + bit s.peek.wbFault 3 +
             s.peek.slot.val * 2 ^ 8 + s.peek.key.toNat * 2 ^ 16) ∧
       (∀ j, j < 46 →
         regRead s (0x304 + 4 * j) = wordAt (imageBytes s.peek.record s.peek.products 0) (4 * j)) ∧
       (∀ n : LineNo,
         let l := s.line n
         regRead s (0x400 + 32 * n.val) =
             BitVec.ofNat 32
               (bit l.config.enabled 0 + l.config.group.val * 2 ^ 4 +
                 (match l.config.mode with | .entry => 1 | .exit => 2 | .both => 3) * 2 ^ 8 +
                 l.config.deadline.toNat * 2 ^ 16 + bit l.config.accept 24) ∧
           regRead s (0x404 + 32 * n.val) =
             BitVec.ofNat 32
               ((match l.state with
                   | .disabled => 0 | .idle => 1 | .inFlight => 2 | .ready => 3 | .taken => 4) +
                 (match l.lastSeq with | none => 2 ^ 3 | some q => q.toNat * 2 ^ 8) +
                 match l.verdict with
                 | none => 0
                 | some v => v.outcome.code * 2 ^ 16 + v.reason.code * 2 ^ 24) ∧
           regRead s (0x408 + 32 * n.val) = l.tapsTaken.zeroExtend 32 ∧
           regRead s (0x40C + 32 * n.val) = l.busy.zeroExtend 32 ∧
           regRead s (0x410 + 32 * n.val) = l.overruns.zeroExtend 32 ∧
           regRead s (0x414 + 32 * n.val) = l.frameErrors.zeroExtend 32 ∧
           regRead s (0x418 + 32 * n.val) = l.deadlines.zeroExtend 32 ∧ regRead s (0x41C + 32 * n.val) = 0) ∧
       ∀ c : CtxNo,
         regRead s (0x600 + 8 * c.val) =
           match s.ctx c with
           | none => 0
           | some x =>
             BitVec.ofNat 32
               (1 + x.line.val * 2 ^ 4 + bit x.awaitRecord 8 + x.key.toNat * 2 ^ 16))

/-- R196, R46, R67, R70, R93, R133, R137, R140, R165: register writes in STOPPED, RUNNING and DRAINING: a write to an RC
register sets it to its reset value whatever is written; CHANGE_LIST and URGENT_ARG keep the value written, and
TARIFF_VIEW_SEL one that names a class or row of 0 to 7; a write to a register of access R, or to an offset assigned to
no register, is ignored in every engine state; nothing else changes. -/
def Obligations.RegisterWritesWhenOpen : Prop :=
  (∀ (s : State) (v : Word) (off : Nat),
     (off ∈
         [0x004, 0x014, 0x018, 0x01C, 0x020, 0x038, 0x03C, 0x040, 0x044, 0x054, 0x058, 0x05C, 0x070, 0x074, 0x078,
           0x07C, 0x090, 0x094, 0x09C, 0x0A0, 0x0A4, 0x0A8, 0x0AC, 0x0BC, 0x0C0] →
       exec (.registerWrite off v) s = .next s) ∧
     (inWindow off = true →
       (0x0C8 ≤ off ∧ off < 0x400) ∨ 0x600 ≤ off ∨ (0x400 ≤ off ∧ (off % 32 = 0x04 ∨ off % 32 = 0x1C)) →
       exec (.registerWrite off v) s = .next s)) ∧
  ∀ (s : State) (v : Word), s.isOpen = true →
    exec (.registerWrite 0x060 v) s = .next { s with counts := { s.counts with misses := 0 } } ∧
    exec (.registerWrite 0x064 v) s = .next { s with counts := { s.counts with cleanEvictions := 0 } } ∧
    exec (.registerWrite 0x068 v) s = .next { s with counts := { s.counts with dirtyEvictions := 0 } } ∧
    exec (.registerWrite 0x06C v) s = .next { s with counts := { s.counts with rescues := 0 } } ∧
    exec (.registerWrite 0x080 v) s = .next { s with port := { s.port with lastFault := LastFault.none } } ∧
    exec (.registerWrite 0x084 v) s = exec (.registerWrite 0x080 v) s ∧
    exec (.registerWrite 0x088 v) s = .next { s with port := { s.port with faults := 0 } } ∧
    exec (.registerWrite 0x08C v) s = .next { s with port := { s.port with late := 0 } } ∧
    exec (.registerWrite 0x0B0 v) s = .next { s with lastWatch := LastWatch.reset } ∧
    exec (.registerWrite 0x0B4 v) s = exec (.registerWrite 0x0B0 v) s ∧
    exec (.registerWrite 0x0B8 v) s = exec (.registerWrite 0x0B0 v) s ∧
    exec (.registerWrite 0x030 v) s = .next { s with change := { s.change with listAddr := v } } ∧
    exec (.registerWrite 0x048 v) s =
      .next { s with urgent := { s.urgent with arg := s.urgent.arg.extractLsb' 32 24 ++ v } } ∧
    exec (.registerWrite 0x04C v) s =
      .next { s with urgent := { s.urgent with arg := v.extractLsb' 0 24 ++ s.urgent.arg.extractLsb' 0 32 } } ∧
    (∀ k : Fin 8, (v.extractLsb' 8 8).toNat = k.val →
      exec (.registerWrite 0x098 v) s =
        .next { s with tariff := { s.tariff with view := { bankB := v[0], row := v[4], number := k } } }) ∧
    (7 < (v.extractLsb' 8 8).toNat → exec (.registerWrite 0x098 v) s = .next s) ∧
    ∀ n : LineNo,
      let sets (l : Line) : Host.Outcome State Fault Refusal := .next { s with lines := s.lines.set n.val l n.isLt }
      exec (.registerWrite (0x408 + 32 * n.val) v) s = sets { s.line n with tapsTaken := 0 } ∧
        exec (.registerWrite (0x40C + 32 * n.val) v) s = sets { s.line n with busy := 0 } ∧
        exec (.registerWrite (0x410 + 32 * n.val) v) s = sets { s.line n with overruns := 0 } ∧
        exec (.registerWrite (0x414 + 32 * n.val) v) s = sets { s.line n with frameErrors := 0 } ∧
        exec (.registerWrite (0x418 + 32 * n.val) v) s = sets { s.line n with deadlines := 0 }

/-- R196, R186, Tables 12.7 and 12.8: a write to a register that gives a command acts as that command (log entry 17);
a code of ENGINE_CTRL that names no control is ignored (that the whole word is the code is the model's: log entry 24); in
HELD and INITIALIZING every register write but those of ENGINE_CTRL and STATION_CLOCK is ignored. -/
def Obligations.RegisterWritesGiveCommands : Prop :=
  (∀ (s : State) (v : Word) (n : LineNo),
     exec (.registerWrite 0x000 1) s = exec .hold s ∧ exec (.registerWrite 0x000 2) s = exec .release s ∧
     exec (.registerWrite 0x000 3) s = exec .run s ∧ exec (.registerWrite 0x000 4) s = exec .stop s ∧
     (v = 0 ∨ 4 < v.toNat → exec (.registerWrite 0x000 v) s = .next s) ∧
     exec (.registerWrite 0x008 v) s = exec (.keyShapeWrite v) s ∧
     exec (.registerWrite 0x00C v) s = exec (.homeBaseWrite v) s ∧
     exec (.registerWrite 0x010 v) s = exec (.stationClockWrite v) s ∧
     exec (.registerWrite 0x024 v) s = exec (.attnPendingWrite v) s ∧
     exec (.registerWrite 0x028 v) s = exec (.attnLevelWrite v) s ∧
     exec (.registerWrite 0x034 1) s = exec .start s ∧ exec (.registerWrite 0x034 2) s = exec .resume s ∧
     exec (.registerWrite 0x034 3) s = exec .suspend s ∧ exec (.registerWrite 0x034 4) s = exec .abort s ∧
     exec (.registerWrite 0x050 1) s = exec .urgentBlock s ∧ exec (.registerWrite 0x050 2) s = exec .unmark s ∧
     exec (.registerWrite 0x050 3) s = exec .peek s ∧ exec (.registerWrite 0x050 4) s = exec .urgentFlush s ∧
     exec (.registerWrite 0x050 5) s = exec .retryWrite s ∧
     exec (.registerWrite 0x0C4 v) s = exec (.lineEventsWrite v) s ∧
     exec (.registerWrite (0x400 + 32 * n.val) v) s =
       (if v[0] then exec (.lineEnable n v) s else exec (.lineDisable n v) s)) ∧
  (∀ (s : State) (off : Nat) (v : Word), s.isOpen = false → inWindow off = true → off ≠ 0x000 → off ≠ 0x010 →
     exec (.registerWrite off v) s = .next s)

/-! ## Gate lines -/

/-- R72, R75, R91, R98: a write of LINE_CONFIG is taken whole with a deadline above 0 and a mode code, ignored whole
otherwise and in HELD and INITIALIZING. Enabling makes a DISABLED line IDLE; disabling withdraws its tap in flight and
drops its verdict, last sequence and timer. That each command sets bit 0 of the word as its row says is the model's (log
entry 22). -/
def Obligations.LineConfigurationWrites : Prop :=
  (∀ (s : State) (n : LineNo) (v : Word),
     (∀ m : Mode, s.isOpen = true → v.extractLsb' 16 8 ≠ 0 → (v.extractLsb' 8 2).toNat = m.code →
       exec (.lineEnable n v) s =
         .next
           { s with
             lines :=
               s.lines.set n.val
                 { s.line n with
                   config := configFrom v m true,
                   state := if (s.line n).state = .disabled then .idle else (s.line n).state }
                 n.isLt }) ∧
     (s.isOpen = false ∨ v.extractLsb' 16 8 = 0 ∨ v.extractLsb' 8 2 = 0 →
       exec (.lineEnable n v) s = .next s ∧ exec (.lineDisable n v) s = .next s)) ∧
  (∀ (s : State) (n : LineNo) (v : Word) (m : Mode), s.isOpen = true → v.extractLsb' 16 8 ≠ 0 →
     (v.extractLsb' 8 2).toNat = m.code →
     ((s.line n).state = .disabled →
       exec (.lineDisable n v) s =
         .next { s with lines := s.lines.set n.val { s.line n with config := configFrom v m false } n.isLt }) ∧
     ((s.line n).state ≠ .disabled →
       ∃ t, exec (.lineDisable n v) s = .next (settle t) ∧
         t.lines =
           s.lines.set n.val
             { s.line n with
               config := configFrom v m false, state := .disabled, ctx := none, verdict := none, lastSeq := none,
               timer := none, frame := if (s.line n).frame = .quiet then .quiet else .ignored }
             n.isLt ∧
         tapWithdrawn n s t ∧ (∀ i, (t.slot i).passes = (s.slot i).passes) ∧ t.attn = s.attn ∧
         t.engine = s.engine ∧ withdrawalFrame s t))

/-- R79, R80: a bad TAP counts a frame error; on an IN_FLIGHT line it is discarded; on a line IDLE, TAKEN, or READY with
a FRAME_ERROR verdict, the line becomes READY with a FRAME_ERROR verdict and the frame's sequence; on a line READY with
a verdict made from a tap, that verdict is discarded as an overrun first, whatever the sequence. An echo returns a TAKEN
line to READY and is otherwise ignored. -/
def Obligations.BadAndEchoedTaps : Prop :=
  (∀ (s : State) (n : LineNo) (q d : Byte) (iss : BitVec 16) (ser : BitVec 40) (chk : Byte), receives n s →
     (chk ≠ xorBytes (tapBytes q d iss ser) ∨ (d ≠ 1 ∧ d ≠ 2)) →
     ((s.line n).state = .inFlight →
       exec (.tap n q d iss ser chk) s =
         .next
           { s with
             lines :=
               s.lines.set n.val
                 { s.line n with frame := .quiet, frameErrors := satInc16 (s.line n).frameErrors } n.isLt }) ∧
     ((s.line n).state = .idle ∨ (s.line n).state = .taken ∨
         ((s.line n).state = .ready ∧ (s.line n).holdsFrameError = true) →
       exec (.tap n q d iss ser chk) s =
         .next
           { s with
             lines :=
               s.lines.set n.val
                 { s.line n with
                   frame := .quiet, frameErrors := satInc16 (s.line n).frameErrors, state := .ready,
                   verdict := some (plainVerdict q .refuse .frameError s), lastSeq := some q }
                 n.isLt }) ∧
     ((s.line n).state = .ready → (s.line n).holdsFrameError = false →
       exec (.tap n q d iss ser chk) s =
         .next
           { s with
             lines :=
               s.lines.set n.val
                 { s.line n with
                   frame := .quiet, frameErrors := satInc16 (s.line n).frameErrors,
                   overruns := satInc16 (s.line n).overruns,
                   verdict := some (plainVerdict q .refuse .frameError s), lastSeq := some q }
                 n.isLt,
             lineEvents := s.lineEvents ||| BitVec.twoPow 16 n.val,
             attn := raised .lineEvent s })) ∧
  (∀ (s : State) (n : LineNo) (q db : Byte) (iss : BitVec 16) (ser : BitVec 40) (chk : Byte) (d : Direction),
     receives n s → tapFrameGood q db iss ser chk d → (s.line n).lastSeq = some q →
     (s.line n).holdsFrameError = false →
     exec (.tap n q db iss ser chk) s =
       .next
         (settle
           { s with
             lines :=
               s.lines.set n.val
                 { s.line n with
                   frame := .quiet, state := if (s.line n).state = .taken then .ready else (s.line n).state }
                 n.isLt }))

/-- R81, R82, R79, R94: a new TAP on an IN_FLIGHT line is dropped as an overrun; a TAP on a line READY with an unread
verdict made from a tap counts an overrun and acts as if that verdict had been taken; LINE_EVENTS keeps the line's flag
until the host writes it as 1. -/
def Obligations.OverrunsAreCountedAndFlagged : Prop :=
  ∀ (s : State) (n : LineNo) (q db : Byte) (iss : BitVec 16) (ser : BitVec 40) (chk : Byte),
    (receives n s → (∃ d, tapFrameGood q db iss ser chk d) → (s.line n).state = .inFlight →
      (s.line n).lastSeq ≠ some q →
      exec (.tap n q db iss ser chk) s =
        .next
          (settle
            { s with
              lines :=
                s.lines.set n.val { s.line n with frame := .quiet, overruns := satInc16 (s.line n).overruns } n.isLt,
              lineEvents := s.lineEvents ||| BitVec.twoPow 16 n.val,
              attn := raised .lineEvent s })) ∧
    (receives n s → (s.line n).state = .ready → (s.line n).holdsFrameError = false → (s.line n).lastSeq ≠ some q →
      exec (.tap n q db iss ser chk) s =
        exec (.tap n q db iss ser chk)
          { s with
            lines :=
              s.lines.set n.val { s.line n with state := .taken, overruns := satInc16 (s.line n).overruns } n.isLt,
            lineEvents := s.lineEvents ||| BitVec.twoPow 16 n.val,
            attn := raised .lineEvent s }) ∧
    ∀ v : Word,
      (s.isOpen = true →
        exec (.lineEventsWrite v) s = .next { s with lineEvents := s.lineEvents &&& ~~~(v.extractLsb' 0 16) }) ∧
      (s.isOpen = false → exec (.lineEventsWrite v) s = .next s)

/-- R83, R100, R101: a TAP taken while the engine is not RUNNING, or with no free context, is answered BUSY; one whose
winning range rule is a DENY is refused RANGE_DENY, and one whose identifier carries a block mark BLOCKED: no context is
kept and no record is reached. -/
def Obligations.TapsAnsweredAtOnce : Prop :=
  (∀ (s : State) (n : LineNo) (q db : Byte) (iss : BitVec 16) (ser : BitVec 40) (chk : Byte) (d : Direction),
     takesTap n q s → tapFrameGood q db iss ser chk d →
     (s.running = false →
       exec (.tap n q db iss ser chk) s =
         .next
           (settle
             { s with
               lines :=
                 s.lines.set n.val
                   { (s.line n).took q with
                     state := .ready, verdict := some (plainVerdict q .busy .engineNotRunning s),
                     busy := satInc16 (s.line n).busy }
                   n.isLt })) ∧
     (s.running = true → (∀ c, s.ctx c ≠ none) →
       exec (.tap n q db iss ser chk) s =
         .next
           (settle
             { s with
               lines :=
                 s.lines.set n.val
                   { (s.line n).took q with
                     state := .ready, verdict := some (plainVerdict q .busy .noContext s),
                     busy := satInc16 (s.line n).busy }
                   n.isLt }))) ∧
  (∀ (s : State) (n : LineNo) (q db : Byte) (iss : BitVec 16) (ser : BitVec 40) (chk : Byte) (d : Direction)
     (c : CtxNo),
     takesTap n q s → tapFrameGood q db iss ser chk d → s.running = true → s.ctx c = none →
     (∀ r, winningRule (mkIdent iss ser) s = some r → (s.ranges.get r).action = .deny →
       exec (.tap n q db iss ser chk) s =
         .next
           (settle
             { s with
               lines :=
                 s.lines.set n.val ((s.line n).answered q (plainVerdict q .refuse .rangeDeny s)) n.isLt })) ∧
     (∀ m, ruleMark (mkIdent iss ser) s = some m → (∃ k, s.marks.get k = some (mkIdent iss ser)) →
       ∃ t, exec (.tap n q db iss ser chk) s = .next (settle t) ∧
         t.lines = s.lines.set n.val ((s.line n).answered q (plainVerdict q .refuse .blocked s)) n.isLt ∧
         watched n (mkIdent iss ser) m s t ∧ keepsCache s t ∧ tapFrame s t))

/-- R102, R22, R103, R118, R119, R84: a TAP whose key's slot is RESIDENT is resolved in its own event against that
record: an accepted record or the refusal's counts are written, a paying product's new entry is written in its cell
(R116, R52), the slot moves to the recency head, and the line is READY. R103, R105: the resolution reads the active
bank, and in it the class of a CLASS rule before the record's own, the line's mode at the event, the context's direction
and group, and the products of the slot. R113, R116, R118, R119, R122, Table 6.3: what the verdicts hold, and which
counts a refusal writes. -/
def Obligations.TapResolvedAtOnce : Prop :=
  (∀ (s : State) (n : LineNo) (q db : Byte) (iss : BitVec 16) (ser : BitVec 40) (chk : Byte) (d : Direction)
    (c : CtxNo) (m : RuleMark) (i : SlotNo),
    takesTap n q s → tapFrameGood q db iss ser chk d → s.running = true → s.ctx c = none →
    ruleMark (mkIdent iss ser) s = some m → (∀ k, s.marks.get k ≠ some (mkIdent iss ser)) →
    findResident (keyOf s.engine.keyShape (mkIdent iss ser)) s = some i →
    let x : TapContext := { tapContext n q d (mkIdent iss ser) s with mark := m }
    ∃ t v, exec (.tap n q db iss ser chk) s = .next (settle t) ∧
      t.lines = s.lines.set n.val ((s.line n).answered q v) n.isLt ∧
      (∀ a, resolve (viewAt i x s) x.ident (s.slot i).record = .ok a →
        v = acceptVerdict x a s ∧ t.slot i = { s.slot i with record := a.record, dirty := true } ∧
          (a.paid = none → t.pool = s.pool) ∧
          ∀ k p, a.paid = some (k, p) →
            v.tag = p.tag ∧ v.rides = (if p.kind = .rideBundle then p.rides else 0) ∧
              ∀ cell, t.pool.entry cell = if (s.slot i).cells[k]? = some cell then p else s.pool.entry cell) ∧
      (∀ why, resolve (viewAt i x s) x.ident (s.slot i).record = .error why →
        v = refuseVerdict x why (s.slot i).record s ∧
          t.slot i =
            { s.slot i with
              record := refusedRecord why (m == .watch) (s.slot i).record,
              dirty := (s.slot i).dirty || refusalWrites why (m == .watch) } ∧
          t.pool = s.pool) ∧
      (∀ j, j ≠ i → t.slot j = s.slot j) ∧ t.recency = i :: s.recency.filter (· != i) ∧
      t.pool.free = s.pool.free ∧ t.slotWait = s.slotWait ∧ t.counts = s.counts ∧ t.taps = s.taps ∧
      t.port = s.port ∧ watched n (mkIdent iss ser) m s t ∧ tapFrame s t) ∧
  (∀ (s : State) (n : LineNo) (q : Byte) (d : Direction) (z : Ident),
    tapContext n q d z s =
      { line := n, sequence := q, direction := d, ident := z, key := keyOf s.engine.keyShape z,
        group := (s.line n).config.group, mark := .none, arrival := s.clock.timeBase, awaitRecord := false }) ∧
  (∀ (s : State) (i : SlotNo) (x : TapContext),
    let bank : Bank := if s.tariff.activeB = true then s.tariff.bankB else s.tariff.bankA
    let cls : ClassNo :=
      match x.mark with
      | .cls k => k
      | .none | .watch => (s.slot i).record.fareClass
    viewAt i x s =
      { now := s.clock.seconds, entry := bank.classes.get cls, fares := bank, epoch := s.tariff.epoch,
        mode := (s.line x.line).config.mode, direction := x.direction, group := x.group, line := x.line,
        watch := decide (x.mark = .watch), products := (s.slot i).cells.map s.pool.entry }) ∧
  (∀ (s : State) (x : TapContext) (a : Accepted),
    acceptVerdict x a s =
      { sequence := x.sequence, outcome := .accept, reason := .none, fare := a.fare, balance := a.record.balance,
        tag := (match a.paid with | some (_, p) => p.tag | none => 0),
        rides := (match a.paid with | some (_, p) => if p.kind = .rideBundle then p.rides else 0 | none => 0),
        epoch := s.tariff.epoch }) ∧
  ∀ (s : State) (x : TapContext) (q : Byte) (o : VOutcome) (why : Reason) (r : Record) (watch : Bool),
    plainVerdict q o why s =
        { sequence := q, outcome := o, reason := why, fare := 0, balance := 0, tag := 0, rides := 0,
          epoch := s.tariff.epoch } ∧
      refuseVerdict x why r s =
        { sequence := x.sequence, outcome := .refuse, reason := why, fare := 0,
          balance := if why = .notEnrolled then 0 else r.balance, tag := 0, rides := 0, epoch := s.tariff.epoch } ∧
      refusedRecord why watch r =
        { r with
          blockedTaps :=
            if why = .blocked then BitVec.ofNat 8 (min 255 (r.blockedTaps.toNat + 1)) else r.blockedTaps,
          watchHits :=
            if watch = true ∧ why ≠ .notEnrolled then BitVec.ofNat 8 (min 255 (r.watchHits.toNat + 1))
            else r.watchHits } ∧
      (refusalWrites why watch = true ↔ why = .blocked ∨ (watch = true ∧ why ≠ .notEnrolled))

/-- R102, R23, R24: a TAP whose key's slot is FETCHING or EVICTING keeps the lowest free context and joins the tail of
the slot's waiting list; an EVICTING slot is rescued, and counted as a rescue the first time. R10: the key that it asks
for is formed of the low bits of the serial, and above them the low bits of the issuer code, as many as the Key Shape.
-/
def Obligations.TapWaitsOnItsSlot : Prop :=
  (∀ (shape : Fin 9) (x : Ident) (b : Fin 16),
     (keyOf shape x).getLsbD b.val =
       if b.val < 16 - shape.val then x.getLsbD b.val else x.getLsbD (40 + (b.val - (16 - shape.val)))) ∧
  ∀ (s : State) (n : LineNo) (q db : Byte) (iss : BitVec 16) (ser : BitVec 40) (chk : Byte) (d : Direction)
    (c : CtxNo) (m : RuleMark) (i : SlotNo),
    takesTap n q s → tapFrameGood q db iss ser chk d → s.running = true → lowestFreeContext c s →
    ruleMark (mkIdent iss ser) s = some m → (∀ k, s.marks.get k ≠ some (mkIdent iss ser)) →
    findSlot (keyOf s.engine.keyShape (mkIdent iss ser)) s = some i → (s.slot i).state ≠ .resident →
    ∃ t, exec (.tap n q db iss ser chk) s = .next (settle t) ∧
      t.lines = s.lines.set n.val ((s.line n).waits q c s.clock.timeBase) n.isLt ∧
      t.ctx c = some { tapContext n q d (mkIdent iss ser) s with mark := m, awaitRecord := true } ∧
      (∀ c', c' ≠ c → t.ctx c' = s.ctx c') ∧
      t.slot i =
        { s.slot i with
          waiting := (s.slot i).waiting ++ [.tap c],
          rescued := (s.slot i).rescued || (s.slot i).state == .evicting } ∧
      t.counts =
        { s.counts with
          rescues :=
            if (s.slot i).state = .evicting ∧ (s.slot i).rescued = false then s.counts.rescues + 1
            else s.counts.rescues } ∧
      (∀ j, j ≠ i → t.slot j = s.slot j) ∧ t.recency = s.recency ∧ t.pool = s.pool ∧ t.slotWait = s.slotWait ∧
      t.port = s.port ∧ watched n (mkIdent iss ser) m s t ∧ tapFrame s t

/-- R102, R25, R30, R33, R41, R42: a TAP whose key has no slot starts a fetch in the FREE slot of the lowest number,
else in the clean eligible slot nearest the recency tail, evicted for it; with neither, it joins the slot-wait list, and
the dirty eligible slot nearest the tail is evicted, or SLOT_SHORT raised. Where an entry of the slot-wait list carries
its key, it joins the list and nothing else happens. -/
def Obligations.TapMisses : Prop :=
  (∀ (s : State) (n : LineNo) (q db : Byte) (iss : BitVec 16) (ser : BitVec 40) (chk : Byte) (d : Direction)
     (c : CtxNo) (m : RuleMark),
     takesTap n q s → tapFrameGood q db iss ser chk d → s.running = true → lowestFreeContext c s →
     ruleMark (mkIdent iss ser) s = some m → (∀ k, s.marks.get k ≠ some (mkIdent iss ser)) →
     findSlot (keyOf s.engine.keyShape (mkIdent iss ser)) s = none →
     (∃ w, w ∈ s.slotWait ∧ w ≠ .tap c ∧ waiterKey s w = keyOf s.engine.keyShape (mkIdent iss ser)) →
     ∃ t, exec (.tap n q db iss ser chk) s = .next (settle t) ∧
       t.lines = s.lines.set n.val ((s.line n).waits q c s.clock.timeBase) n.isLt ∧
       t.ctx c = some { tapContext n q d (mkIdent iss ser) s with mark := m } ∧ t.slotWait = s.slotWait ++ [.tap c] ∧
       t.slots = s.slots ∧ t.recency = s.recency ∧ t.port = s.port ∧ t.counts = s.counts ∧ t.pool = s.pool ∧
       watched n (mkIdent iss ser) m s t ∧ tapFrame s t) ∧
  (∀ (s : State) (n : LineNo) (q db : Byte) (iss : BitVec 16) (ser : BitVec 40) (chk : Byte) (d : Direction)
     (c : CtxNo) (m : RuleMark),
     takesTap n q s → tapFrameGood q db iss ser chk d → s.running = true → lowestFreeContext c s →
     ruleMark (mkIdent iss ser) s = some m → (∀ k, s.marks.get k ≠ some (mkIdent iss ser)) →
     let key := keyOf s.engine.keyShape (mkIdent iss ser)
     findSlot key s = none → s.slotWait = [] →
     (∀ i, firstFree s = some i →
       ∃ t, exec (.tap n q db iss ser chk) s = .next (settle t) ∧
         t.lines = s.lines.set n.val ((s.line n).waits q c s.clock.timeBase) n.isLt ∧
         t.ctx c = some { tapContext n q d (mkIdent iss ser) s with mark := m, awaitRecord := true } ∧
         t.slot i = { Slot.unused with state := .fetching, key := key, waiting := [.tap c] } ∧
         t.port.list = s.port.list ++ [.fetch i key (homeAddr s key)] ∧
         t.counts = { s.counts with misses := s.counts.misses + 1 } ∧ (∀ j, j ≠ i → t.slot j = s.slot j) ∧
         t.recency = s.recency ∧ t.pool = s.pool ∧ t.slotWait = [] ∧ watched n (mkIdent iss ser) m s t ∧
         tapFrame s t) ∧
     (∀ i, firstFree s = none → victim Slot.cleanEligible s = some i →
       ∃ t, exec (.tap n q db iss ser chk) s = .next (settle t) ∧
         t.lines = s.lines.set n.val ((s.line n).waits q c s.clock.timeBase) n.isLt ∧
         t.slot i = { Slot.unused with state := .fetching, key := key, waiting := [.tap c] } ∧
         t.port.list = s.port.list ++ [.fetch i key (homeAddr s key)] ∧
         t.counts =
           { s.counts with misses := s.counts.misses + 1, cleanEvictions := s.counts.cleanEvictions + 1 } ∧
         (∀ j, j ≠ i → t.slot j = s.slot j) ∧ t.recency = s.recency.filter (· != i) ∧
         t.pool.free = (s.slot i).cells.reverse ++ s.pool.free ∧ t.slotWait = [] ∧
         watched n (mkIdent iss ser) m s t ∧ tapFrame s t)) ∧
  (∀ (s : State) (n : LineNo) (q db : Byte) (iss : BitVec 16) (ser : BitVec 40) (chk : Byte) (d : Direction)
     (c : CtxNo),
     takesTap n q s → tapFrameGood q db iss ser chk d → s.running = true → lowestFreeContext c s →
     winningRule (mkIdent iss ser) s = none → (∀ k, s.marks.get k ≠ some (mkIdent iss ser)) →
     findSlot (keyOf s.engine.keyShape (mkIdent iss ser)) s = none →
     (∀ w, w ∈ s.slotWait → w ≠ .tap c ∧ waiterKey s w ≠ keyOf s.engine.keyShape (mkIdent iss ser)) →
     firstFree s = none → victim Slot.cleanEligible s = none →
     ∃ t, exec (.tap n q db iss ser chk) s = .next (settle t) ∧
       t.lines = s.lines.set n.val ((s.line n).waits q c s.clock.timeBase) n.isLt ∧
       t.ctx c = some (tapContext n q d (mkIdent iss ser) s) ∧ t.slotWait = s.slotWait ++ [.tap c] ∧ tapFrame s t ∧
       (victim Slot.dirtyEligible s = none →
         t.attn = raised .slotShort s ∧ t.slots = s.slots ∧ t.recency = s.recency ∧ t.port = s.port) ∧
       (∀ i, victim Slot.dirtyEligible s = some i →
         let u := dirtilyEvicted i s
         t.attn = s.attn ∧ t.slots = u.slots ∧ t.recency = u.recency ∧ t.port = u.port ∧ t.counts = u.counts ∧
           t.pool = s.pool))

/-- R85, R86, R87, R77: the opcode of a POLL or REPEAT fixes the sixteen reply bytes from the line as it stands; the
complete frame moves a READY line whose verdict the reply carried to TAKEN; cut short, it counts a frame error and moves
nothing. Only the line changes. R195, Table 12.6: the line status byte of each line state, and the fifteen bytes of a
verdict record with their codes and the record check. -/
def Obligations.Replies : Prop :=
  (∀ (s : State) (n : LineNo), receives n s →
     exec (.pollReplyFixed n) s =
         .next
           { s with
             lines :=
               s.lines.set n.val
                 { s.line n with
                   frame :=
                     .replying false (replyBytes (s.line n) false s.running) ((s.line n).state == .ready) }
                 n.isLt } ∧
       exec (.repeatReplyFixed n) s =
         .next
           { s with
             lines :=
               s.lines.set n.val
                 { s.line n with
                   frame :=
                     .replying true (replyBytes (s.line n) true s.running)
                       ((s.line n).state == .ready || (s.line n).state == .taken) }
                 n.isLt } ∧
       exec (.poll n) s =
         .next
           { s with
             lines :=
               s.lines.set n.val
                 { s.line n with
                   frame := .quiet, state := if (s.line n).state = .ready then .taken else (s.line n).state }
                 n.isLt } ∧
       exec (.repeatFrame n) s = exec (.poll n) s ∧
       (∀ v k, (s.line n).state = .ready → (s.line n).verdict = some v →
         replyBytes (s.line n) k s.running =
           (if s.running = true then 0x0E#8 else 0x06#8) :: encodeVerdict v) ∧
       (∀ k, (s.line n).state = .inFlight →
         replyBytes (s.line n) k s.running =
           (if s.running = true then 0x09#8 else 0x01#8) :: List.replicate 15 0) ∧
       (∀ k, (s.line n).state = .idle →
         replyBytes (s.line n) k s.running =
           (if s.running = true then 0x08#8 else 0x00#8) :: List.replicate 15 0) ∧
       ((s.line n).state = .taken →
         replyBytes (s.line n) false s.running =
           (if s.running = true then 0x0B#8 else 0x03#8) :: List.replicate 15 0) ∧
       (∀ v, (s.line n).state = .taken → (s.line n).verdict = some v →
         replyBytes (s.line n) true s.running =
           (if s.running = true then 0x0F#8 else 0x07#8) :: encodeVerdict v)) ∧
  (∀ v : Verdict,
     let outcome : Nat :=
       match v.outcome with
       | .accept => 1 | .refuse => 2 | .retry => 3 | .busy => 4 | .deadlineAccept => 5 | .deadlineRefuse => 6
       | .fault => 7
     let reason : Nat :=
       match v.reason with
       | .none => 0 | .notEnrolled => 1 | .blocked => 2 | .rangeDeny => 3 | .lowBalance => 4 | .passback => 5
       | .velocity => 6 | .direction => 7 | .cellShort => 8 | .slotShort => 9 | .memFault => 10 | .damaged => 11
       | .noContext => 12 | .engineNotRunning => 13 | .frameError => 14
     let balance : Word := BitVec.ofInt 32 v.balance
     let body : List Byte :=
       [v.sequence, BitVec.ofNat 8 outcome, BitVec.ofNat 8 reason, v.fare.extractLsb' 8 8, v.fare.extractLsb' 0 8,
         balance.extractLsb' 24 8, balance.extractLsb' 16 8, balance.extractLsb' 8 8, balance.extractLsb' 0 8,
         v.tag.extractLsb' 8 8, v.tag.extractLsb' 0 8, v.rides.extractLsb' 8 8, v.rides.extractLsb' 0 8, v.epoch]
     v.outcome.code = outcome ∧ v.reason.code = reason ∧
       encodeVerdict v = body ++ [body.foldl (fun x y => x ^^^ y) 0]) ∧
  (∀ (s : State) (n : LineNo) (k : Bool) (reply : List Byte) (carried : Bool),
     (s.line n).frame = .replying k reply carried →
     exec (if k then .repeatFrame n else .poll n) s =
         .next
           { s with
             lines :=
               s.lines.set n.val
                 { s.line n with
                   frame := .quiet,
                   state := if (s.line n).state = .ready ∧ carried = true then .taken else (s.line n).state }
                 n.isLt } ∧
       exec (.frameCutShort n) s =
         .next
           { s with
             lines :=
               s.lines.set n.val
                 { s.line n with frame := .quiet, frameErrors := satInc16 (s.line n).frameErrors } n.isLt })

/-- R76, R77, R75: select falls and a frame is received, or ignored on a DISABLED line; a frame cut short or of unknown
opcode counts a frame error and nothing else; a frame without an opcode counts nothing. While select is low on an
enabled line the device drives data out: 00h during the opcode, the bytes of a TAP and those beyond a reply, and the
reply after its opcode; else it does not (that it is 00h after an unknown opcode and through an ignored frame is the
model's: log entry 28). A bit is sampled at each rising edge of the clock and the next is placed at the falling edge
that follows; each eighth bit completes a byte, the most significant bit first, and a partial byte counts for nothing.
R195, Table 12.5: the opcode 3Ch begins a TAP of eleven bytes, 5Ah a POLL and 69h a REPEAT of seventeen; the bytes of a
frame give the command that it stands for, and the opcode of a POLL or REPEAT the event that fixes its reply, between
the fall of select and that command. -/
def Obligations.FramesAndTheirBytes : Prop :=
  (∀ (n : LineNo) (q d : Byte) (iss : BitVec 16) (ser : BitVec 40) (chk : Byte) (rest : List Byte),
     let ten : List Byte :=
       [0x3C, q, d, iss.extractLsb' 8 8, iss.extractLsb' 0 8, ser.extractLsb' 32 8, ser.extractLsb' 24 8,
         ser.extractLsb' 16 8, ser.extractLsb' 8 8, ser.extractLsb' 0 8]
     tapBytes q d iss ser = ten ∧ frameCommand n (ten ++ chk :: rest) = .tap n q d iss ser chk ∧
       (rest.length < 10 → frameCommand n (0x3C :: rest) = .frameCutShort n) ∧
       (rest.length < 16 →
         frameCommand n (0x5A :: rest) = .frameCutShort n ∧ frameCommand n (0x69 :: rest) = .frameCutShort n) ∧
       (16 ≤ rest.length →
         frameCommand n (0x5A :: rest) = .poll n ∧ frameCommand n (0x69 :: rest) = .repeatFrame n) ∧
       frameCommand n [] = .frameWithoutOpcode n ∧
       ∀ o : Byte, o ≠ 0x3C → o ≠ 0x5A → o ≠ 0x69 → frameCommand n (o :: rest) = .unknownOpcode n o) ∧
  (∀ (n : LineNo) (o : Byte),
     opcodeCommand n o =
       if o = 0x5A then some (.pollReplyFixed n) else if o = 0x69 then some (.repeatReplyFixed n) else none) ∧
  (∀ b : Byte, directionOf b = if b = 1 then some .entry else if b = 2 then some .exit else none) ∧
  (∀ (bits : List Bool),
     (bitsBytes bits).length = bits.length / 8 ∧
       ∀ (k : Nat) (j : Fin 8), k < bits.length / 8 →
         (byteAt (bitsBytes bits) k).getLsbD (7 - j.val) = bits.getD (8 * k + j.val) false) ∧
  (∀ (clock : Bool) (x : LineSample) (wave : List LineSample),
     sampledBits clock [] = [] ∧
       sampledBits clock (x :: wave) =
         (if clock = false ∧ x.clock = true then [x.dataIn] else []) ++ sampledBits x.clock wave) ∧
  (∀ (n : LineNo) (wave : List LineSample),
     let bytes := bitsBytes (sampledBits false wave)
     (∀ o rest, bytes = o :: rest → o = 0x5A ∨ o = 0x69 →
       frameEvents n wave =
         [.frameStart n, if o = 0x5A then .pollReplyFixed n else .repeatReplyFixed n, frameCommand n bytes]) ∧
       (bytes.head? ≠ some 0x5A → bytes.head? ≠ some 0x69 →
         frameEvents n wave = [.frameStart n, frameCommand n bytes])) ∧
  (∀ (s : State) (n : LineNo) (wave : List LineSample) (placed : Nat), fallingEdges false wave = placed →
     dataOut n wave s = (lineDrives n (placed / 8) s).map fun b => b.getLsbD (7 - placed % 8)) ∧
  ∀ (s : State) (n : LineNo),
    (∀ k, (s.line n).state = .disabled ∨ (s.line n).frame = .quiet → lineDrives n k s = none) ∧
    (∀ k, (s.line n).state ≠ .disabled → (s.line n).frame = .receiving ∨ (s.line n).frame = .ignored →
      lineDrives n k s = some 0) ∧
    (∀ again reply carried, (s.line n).state ≠ .disabled → (s.line n).frame = .replying again reply carried →
      lineDrives n 0 s = some 0 ∧
        ∀ k, lineDrives n (k + 1) s = some (if h : k < reply.length then reply[k] else 0)) ∧
    ((s.line n).frame = .quiet →
      exec (.frameStart n) s =
        .next
          { s with
            lines :=
              s.lines.set n.val
                { s.line n with frame := if (s.line n).state = .disabled then .ignored else .receiving } n.isLt }) ∧
    (receives n s →
      exec (.frameCutShort n) s =
          .next
            { s with
              lines :=
                s.lines.set n.val
                  { s.line n with frame := .quiet, frameErrors := satInc16 (s.line n).frameErrors } n.isLt } ∧
        (∀ o : Byte, o ≠ 0x3C#8 → o ≠ 0x5A#8 → o ≠ 0x69#8 →
          exec (.unknownOpcode n o) s = exec (.frameCutShort n) s) ∧
        exec (.frameWithoutOpcode n) s =
          .next { s with lines := s.lines.set n.val { s.line n with frame := .quiet } n.isLt }) ∧
    ((s.line n).frame = .ignored →
      exec (.frameCutShort n) s =
          .next { s with lines := s.lines.set n.val { s.line n with frame := .quiet } n.isLt } ∧
        exec (.frameWithoutOpcode n) s = exec (.frameCutShort n) s)

/-- R88, R90, R98, R26: the deadline of an IN_FLIGHT line runs out: the tap is withdrawn, the line holds the verdict of
its policy, the reason tells a wait for a slot from a wait for a record, and a DEADLINE_ACCEPT adds a pass at a FETCHING
slot and raises DEADLINE_PASS. -/
def Obligations.DeadlineExpiry : Prop :=
  ∀ (s : State) (n : LineNo) (c : CtxNo) (x : TapContext) (q : Byte) (t0 : Timer),
    (s.line n).state = .inFlight → (s.line n).timer = some t0 → t0.duration ≤ elapsedMs s t0.start →
    (s.line n).ctx = some c → s.ctx c = some x → (s.line n).lastSeq = some q →
    ∃ t, exec (.deadlineExpiry n) s = .next (settle t) ∧
      t.lines =
        s.lines.set n.val
          { s.line n with
            state := .ready, ctx := none, timer := none, deadlines := satInc16 (s.line n).deadlines,
            verdict :=
              some
                (plainVerdict q (if (s.line n).config.accept = true then .deadlineAccept else .deadlineRefuse)
                  (if x.awaitRecord = true then .none else .slotShort) s) }
          n.isLt ∧
      tapWithdrawn n s t ∧
      (∀ i,
        (t.slot i).passes =
          if (s.line n).config.accept = true ∧ (s.slot i).state = .fetching ∧ .tap c ∈ (s.slot i).waiting then
            satInc8 (s.slot i).passes
          else (s.slot i).passes) ∧
      t.attn = (if (s.line n).config.accept = true then raised .deadlinePass s else s.attn) ∧
      t.engine = s.engine ∧ withdrawalFrame s t

/-! ## Resolution -/

/-- R104 to R109, R111 to R113, R118: an EMPTY record or another card's is NOT_ENROLLED, a BLOCKED record BLOCKED, a
direction against the mode DIRECTION, a re-entry within the passback time PASSBACK. An entry past these is accepted when
its open trip's unmatched fare stays within the overdraft, a token is left after the refill, and a pass or the minimum
entry balance is there; where the first of these fails it is LOW_BALANCE, where the second fails VELOCITY, and where the
third fails LOW_BALANCE. -/
def Obligations.EntryStages : Prop :=
  (∀ (v : TapView) (x : Ident) (r : Record),
     (r.state = .empty ∨ r.ident ≠ x → resolve v x r = .error .notEnrolled) ∧
     (r.state = .blocked → r.ident = x → resolve v x r = .error .blocked) ∧
     (r.state = .active → r.ident = x →
       (v.mode = .entry ∧ v.direction = .exit ∨ v.mode = .exit ∧ v.direction = .entry →
         resolve v x r = .error .direction) ∧
       (v.mode ≠ .exit → v.direction = .entry → r.trip = .within →
         ((v.now.toNat : Int) - r.entryStamp.toNat).toNat < v.entry.passback.toNat →
         resolve v x r = .error .passback))) ∧
  (∀ (v : TapView) (x : Ident) (r : Record), r.state = .active → r.ident = x → v.direction = .entry →
     v.mode ≠ .exit →
     let left : Int := r.balance - (if r.trip = .within then (v.entry.unmatched.toNat : Int) else 0)
     (r.trip = .within → v.entry.passback.toNat ≤ ((v.now.toNat : Int) - r.entryStamp.toNat).toNat) →
     (r.trip = .within → left < -(v.entry.overdraft.toNat : Int) → resolve v x r = .error .lowBalance) ∧
       ((r.trip = .within → -(v.entry.overdraft.toNat : Int) ≤ left) →
         ((refill v (closeTrip v r)).tokens.val = 0 → resolve v x r = .error .velocity) ∧
           ((refill v (closeTrip v r)).tokens.val ≠ 0 → entryPass v = false → left < v.entry.minEntry.toNat →
             resolve v x r = .error .lowBalance))) ∧
  (∀ v : TapView,
     entryPass v = true ↔
       ∃ p, p ∈ v.products ∧ p.kind = .periodPass ∧ validToday v p ∧ p.zoneMask.getLsbD v.group.val = true) ∧
  (∀ (v : TapView) (x : Ident) (r : Record), r.state = .active → r.ident = x → v.direction = .entry →
     v.mode ≠ .exit →
     (r.trip = .within →
       v.entry.passback.toNat ≤ ((v.now.toNat : Int) - r.entryStamp.toNat).toNat ∧
         -(v.entry.overdraft.toNat : Int) ≤ r.balance - v.entry.unmatched.toNat) →
     (refill v (closeTrip v r)).tokens.val ≠ 0 →
     (entryPass v = true ∨
       (v.entry.minEntry.toNat : Int) ≤ r.balance - (if r.trip = .within then (v.entry.unmatched.toNat : Int) else 0)) →
     resolve v x r =
       .ok
         { record :=
             { r with
               balance := r.balance - (if r.trip = .within then (v.entry.unmatched.toNat : Int) else 0),
               trip := .within, entryGroup := v.group, entryEpoch := v.epoch, entryStamp := v.now,
               tokens := (refill v (closeTrip v r)).tokens - 1, refillMark := (refill v (closeTrip v r)).refillMark,
               lastTapStamp := v.now, lastTapLine := v.line, tapCount := r.tapCount + 1,
               watchHits := if v.watch = true then satInc8 r.watchHits else r.watchHits },
           fare := if r.trip = .within then v.entry.unmatched else 0,
           paid := none })

/-- R110: the refill: below the burst and with no negative elapsed time, one token comes for each whole refill period, up
to the burst, and the mark moves by the whole periods, or to now when the burst is reached; at the burst, or with a
negative elapsed time, the mark alone moves to now. -/
def Obligations.TokensRefill : Prop :=
  ∀ (v : TapView) (r : Record), 1 ≤ v.entry.refill.toNat → v.entry.burst.toNat ≤ 15 →
    (v.now.toNat < r.refillMark.toNat ∨ v.entry.burst.toNat ≤ r.tokens.val →
      refill v r = { r with refillMark := v.now }) ∧
    (r.refillMark.toNat ≤ v.now.toNat → r.tokens.val < v.entry.burst.toNat →
      (refill v r).tokens.val =
          min v.entry.burst.toNat
            (r.tokens.val + (v.now.toNat - r.refillMark.toNat) / v.entry.refill.toNat) ∧
        (refill v r).refillMark.toNat =
          (if v.entry.burst.toNat ≤ r.tokens.val + (v.now.toNat - r.refillMark.toNat) / v.entry.refill.toNat then
            v.now.toNat
          else
            r.refillMark.toNat +
              (v.now.toNat - r.refillMark.toNat) / v.entry.refill.toNat * v.entry.refill.toNat) ∧
        { refill v r with tokens := r.tokens, refillMark := r.refillMark } = r)

/-- R114 to R118: a matched exit is paid by the product that pays, else its fare is the base fare scaled by the percent
and held at 65,535; an unmatched exit costs the unmatched fare; a debit below the negated overdraft is LOW_BALANCE;
every accepted exit closes the trip. An exit is matched when the trip is open and less than the max trip seconds old;
the first valid PERIOD PASS that covers both groups pays, and where there is none the first such RIDE BUNDLE with a ride
left, which gives up a ride; the paying product's uses rise by one. -/
def Obligations.PricedExits : Prop :=
  (∀ (v : TapView) (r : Record),
     let passes (p : ProductEntry) : Prop := p.kind = .periodPass ∧ coversBoth v r p
     let rides (p : ProductEntry) : Prop := p.kind = .rideBundle ∧ coversBoth v r p ∧ p.rides ≠ 0
     (matchedExit v r = true ↔
       r.trip = .within ∧ ((v.now.toNat : Int) - r.entryStamp.toNat).toNat < v.entry.maxTrip.toNat) ∧
     (∀ k p, v.products[k]? = some p → passes p → (∀ j q, j < k → v.products[j]? = some q → ¬ passes q) →
       payingProduct v r = some (k, { p with uses := p.uses + 1 })) ∧
     ((∀ p, p ∈ v.products → ¬ passes p) →
       (∀ k p, v.products[k]? = some p → rides p → (∀ j q, j < k → v.products[j]? = some q → ¬ rides q) →
         payingProduct v r = some (k, { p with rides := p.rides - 1, uses := p.uses + 1 })) ∧
       ((∀ p, p ∈ v.products → ¬ rides p) → payingProduct v r = none))) ∧
  ∀ (v : TapView) (x : Ident) (r : Record), r.state = .active → r.ident = x → v.direction = .exit →
    v.mode ≠ .entry →
    let closed : Int → Record := fun b =>
      { r with
        balance := b, trip := .out, lastTapStamp := v.now, lastTapLine := v.line, tapCount := r.tapCount + 1,
        watchHits := if v.watch = true then satInc8 r.watchHits else r.watchHits }
    let fare : Nat :=
      if matchedExit v r = true then
        min 65535 ((v.fares.baseFare r.entryGroup v.group).toNat * v.entry.percent.toNat / 100)
      else v.entry.unmatched.toNat
    (∀ p, matchedExit v r = true → payingProduct v r = some p →
      resolve v x r = .ok { record := closed r.balance, fare := 0, paid := some p }) ∧
    (matchedExit v r = false ∨ payingProduct v r = none →
      (-(v.entry.overdraft.toNat : Int) ≤ r.balance - fare →
        resolve v x r = .ok { record := closed (r.balance - fare), fare := BitVec.ofNat 16 fare, paid := none }) ∧
      (r.balance - fare < -(v.entry.overdraft.toNat : Int) → resolve v x r = .error .lowBalance))

/-! ## The account cache and the Home Store Port -/

/-- R31, R50, R27, R120: a FETCH whose last word comes good and whose image is valid enters its record in the slot, with
one cell for each product in list order, a block mark applied and pending passes folded in; its waiting list is then
served entry by entry, a waiting tap's verdict reaches its line, and a waiting change command acts as the same command
does at once on a RESIDENT slot (R149); the entries behind a RETIRE stay on the EVICTING slot and rescue it. R53: short
of cells, the fetch first frees the clean eligible slot with cells nearest the recency tail and hands it over (R33,
R43), and goes on from there. -/
def Obligations.FetchCompletes : Prop :=
  (∀ (s : State) (j : Nat) (w : Word) (i : SlotNo) (o : Op) (r : Record) (ps : List ProductEntry),
     fetchAwaitsLast j i o s → decodeImage (wordsBytes (o.words ++ [w])) = .valid r ps →
     ps.length ≤ s.pool.free.length → s.pool.free.Nodup →
     let marked := r.state ≠ .empty ∧ ∃ k, s.marks.get k = some r.ident
     let blocked : Record := if marked then { r with state := .blocked } else r
     ∃ t, exec (.fetchComplete j w (oddParity w)) s = .next (settle (serve i (s.slot i).waiting t)) ∧
       t.slot i =
         { Slot.unused with
           state := .resident, key := (s.slot i).key, cells := s.pool.free.take ps.length,
           dirty := decide (marked ∨ (s.slot i).passes ≠ 0),
           record :=
             if (s.slot i).passes = 0 then blocked
             else { blocked with deadlinePasses := satAdd8 r.deadlinePasses (s.slot i).passes } } ∧
       t.products i = ps ∧ t.pool.free = s.pool.free.drop ps.length ∧ t.recency = i :: s.recency.filter (· != i) ∧
       (∀ m, t.marks.get m = if marked ∧ s.marks.get m = some r.ident then none else s.marks.get m) ∧
       t.port = { s.port with inFlight := s.port.inFlight.eraseIdx j } ∧ (∀ k, k ≠ i → t.slot k = s.slot k) ∧
       t.lines = s.lines ∧ t.taps = s.taps ∧ t.slotWait = s.slotWait ∧ t.counts = s.counts ∧ t.attn = s.attn ∧
       t.change = s.change ∧ t.urgent = s.urgent ∧ keepsHost s t) ∧
  (∀ (s : State) (j : Nat) (w : Word) (i v : SlotNo) (o : Op) (r : Record) (ps : List ProductEntry),
     fetchAwaitsLast j i o s → decodeImage (wordsBytes (o.words ++ [w])) = .valid r ps →
     s.pool.free.length < ps.length → cellVictim i s = some v →
     exec (.fetchComplete j w (oddParity w)) s =
       exec (.fetchComplete j w (oddParity w)) (handOver v (cleanlyEvicted v s))) ∧
  (∀ (s : State) (i : SlotNo) (c : CtxNo) (x : TapContext), s.ctx c = some x → (s.slot i).state = .resident →
     (s.line x.line).state = .inFlight →
     ∃ v, (serve i [.tap c] s).ctx c = none ∧ (∀ c', c' ≠ c → (serve i [.tap c] s).ctx c' = s.ctx c') ∧
       (serve i [.tap c] s).lines =
         s.lines.set x.line.val
           { s.line x.line with state := .ready, ctx := none, verdict := some v, timer := none } x.line.isLt ∧
       (∀ a, resolve (viewAt i x s) x.ident (s.slot i).record = .ok a →
         v = acceptVerdict x a s ∧
           (serve i [.tap c] s).slot i = { s.slot i with record := a.record, dirty := true } ∧
           ∀ k p, a.paid = some (k, p) → ∀ cell,
             (serve i [.tap c] s).pool.entry cell =
               if (s.slot i).cells[k]? = some cell then p else s.pool.entry cell) ∧
       (∀ why, resolve (viewAt i x s) x.ident (s.slot i).record = .error why →
         v = refuseVerdict x why (s.slot i).record s) ∧
       (serve i [.tap c] s).recency = i :: s.recency.filter (· != i)) ∧
  (∀ (s : State) (i : SlotNo) (c : ChangeCommand), commandOf s.change.block.command = some c → c ∈ recordCommands →
     (s.slot i).state = .resident →
     (∀ st, identityCheck c s.change.block.ident (s.slot i).record = some st →
       serve i [.change] s =
         { s with
           recency := i :: s.recency.filter (· != i), change := { s.change with state := .storing },
           port :=
             { s.port with
               list :=
                 s.port.list ++
                   [.statusWrite s.change.blockAddr (s.change.key.zeroExtend 32) (statusHalf st)] } }) ∧
     ∀ (j : Nat) (w : Word) (p : BitVec 4) (o : Op) (u : State), blockReady c j w p u o →
       findResident (blockKey o u) u = some i →
       s =
         { u with
           change :=
             { u.change with
               block := parseBlock o.words, heldLink := (parseBlock o.words).link, key := blockKey o u },
           port := { u.port with inFlight := u.port.inFlight.eraseIdx j } } →
       exec (c.instr j w p) u = .next (settle (serve i [.change] s))) ∧
  ∀ (s : State) (i : SlotNo) (w : Waiter) (ws : List Waiter),
    (((serve i [w] s).slot i).state = .resident → serve i (w :: ws) s = serve i ws (serve i [w] s)) ∧
      (((serve i [w] s).slot i).state ≠ .resident → ws ≠ [] →
        let t := serve i [w] s
        serve i (w :: ws) s =
          { t with
            slots := t.slots.set i.val { t.slot i with waiting := ws, rescued := true } i.isLt,
            counts := { t.counts with rescues := t.counts.rescues + 1 } })

/-- R14, R54, R32, R121: a fetch that gives no record frees its slot and answers a waiting tap: FAULT DAMAGED for a
damaged image, RETRY CELL_SHORT when no clean slot can give the cells, FAULT MEM_FAULT with a recorded fault for a
failed fetch. A waiting change command is completed unapplied with DAMAGED, CELL_SHORT or MEM_FAULT and its key (R149,
Table 8.3). R54, R34: a fetch short of cells begins dirty evictions from the recency tail on, of slots with cells, until
their cells cover what is missing or no such slot is left. -/
def Obligations.FetchThatGivesNoRecord : Prop :=
  (∀ (s : State) (j : Nat) (i : SlotNo) (o : Op), fetchAt j i o s → s.slotWait = [] →
    (s.slot i).waiting = [.change] →
    let given (u t : State) (c : Status) (p : Port) : Prop :=
      t.slot i = Slot.unused ∧ (∀ k, k ≠ i → t.slot k = u.slot k) ∧ t.lines = s.lines ∧ t.taps = s.taps ∧
        t.change = { s.change with state := .storing } ∧
        t.port =
          { p with
            list :=
              u.port.list ++ [.statusWrite s.change.blockAddr (s.change.key.zeroExtend 32) (statusHalf c)] } ∧
        t.recency = u.recency ∧ t.slotWait = [] ∧ t.counts = u.counts ∧ t.pool = s.pool ∧ t.urgent = s.urgent ∧
        t.marks = s.marks ∧ keepsHost s t
    let ended : Port := { s.port with inFlight := s.port.inFlight.eraseIdx j }
    (∀ w, o.words.length = 45 → decodeImage (wordsBytes (o.words ++ [w])) = .damaged →
      ∃ t, exec (.fetchComplete j w (oddParity w)) s = .next (settle t) ∧ given s t .damaged ended ∧
        t.attn = raised .damaged s) ∧
    (∀ w r ps, o.words.length = 45 → decodeImage (wordsBytes (o.words ++ [w])) = .valid r ps →
      s.pool.free.length < ps.length → cellVictim i s = none →
      ∃ t, exec (.fetchComplete j w (oddParity w)) s = .next (settle t) ∧
        given (evictForCells (ps.length - s.pool.free.length) s.recency.reverse s) t .cellShort ended ∧
        t.attn = raised .cellShort s) ∧
    (∀ e out, o.endBy s e = some (o, out) → out ≠ .ok →
      ∃ t, exec (.fetchFail j e) s = .next (settle t) ∧
        given s t .memFault (portFaulted j o.request out (if out = .timeout then [o.beat] else []) s) ∧
        t.attn = raised .memFault s)) ∧
  (∀ (s : State) (j : Nat) (i : SlotNo) (o : Op) (c : CtxNo) (x : TapContext),
    fetchAt j i o s → s.slotWait = [] → (s.slot i).waiting = [.tap c] → s.ctx c = some x →
    (s.line x.line).state = .inFlight →
    let given (u t : State) (out : VOutcome) (why : Reason) : Prop :=
      t.slot i = Slot.unused ∧ (∀ k, k ≠ i → t.slot k = u.slot k) ∧ t.ctx c = none ∧
        (∀ c', c' ≠ c → t.ctx c' = s.ctx c') ∧
        t.lines =
          s.lines.set x.line.val
            { s.line x.line with
              state := .ready, ctx := none, timer := none, verdict := some (plainVerdict x.sequence out why s) }
            x.line.isLt ∧
        t.recency = u.recency ∧ t.slotWait = [] ∧ t.counts = u.counts ∧ t.pool = s.pool ∧ t.change = s.change ∧
        t.urgent = s.urgent ∧ t.marks = s.marks ∧ keepsHost s t
    (∀ w, o.words.length = 45 → decodeImage (wordsBytes (o.words ++ [w])) = .damaged →
      ∃ t, exec (.fetchComplete j w (oddParity w)) s = .next (settle t) ∧ given s t .fault .damaged ∧
        t.attn = raised .damaged s ∧ t.port = { s.port with inFlight := s.port.inFlight.eraseIdx j }) ∧
    (∀ w r ps, o.words.length = 45 → decodeImage (wordsBytes (o.words ++ [w])) = .valid r ps →
      s.pool.free.length < ps.length → cellVictim i s = none →
      let u := evictForCells (ps.length - s.pool.free.length) s.recency.reverse s
      ∃ t, exec (.fetchComplete j w (oddParity w)) s = .next (settle t) ∧ given u t .retry .cellShort ∧
        t.attn = raised .cellShort s ∧
        t.port = { s.port with inFlight := s.port.inFlight.eraseIdx j, list := u.port.list }) ∧
    (∀ e out, o.endBy s e = some (o, out) → out ≠ .ok →
      ∃ t, exec (.fetchFail j e) s = .next (settle t) ∧ given s t .fault .memFault ∧ t.attn = raised .memFault s ∧
        t.port = portFaulted j o.request out (if out = .timeout then [o.beat] else []) s)) ∧
  (∀ (s : State) (need : Nat) (l : List SlotNo), need = 0 ∨ (∀ k, k ∈ l → ¬ yieldsCells k s) →
    evictForCells need l s = s) ∧
  ∀ (s : State) (need : Nat) (k : SlotNo) (tail rest : List SlotNo), 0 < need →
    (∀ j, j ∈ tail → ¬ yieldsCells j s) → yieldsCells k s →
    evictForCells need (tail ++ k :: rest) s =
      evictForCells (need - (s.slot k).cells.length) rest (dirtilyEvicted k s)

/-- R36, Table 2.4, R63, R64, R67: an eviction write acknowledged whole frees its slot and returns its cells, or,
rescued, returns it RESIDENT and serves its waiting list; one that fails, by an error or by TIMEOUT, returns it
RESIDENT, dirty, with wb_fault, and raises MEM_FAULT; its requesters are answered with the outcome and the generation. A
freed slot is handed to the oldest entry of the slot-wait list and the later ones of its key (R43); a slot that was not
freed leaves the list, after reclaim (R44), to a dirty victim or to SLOT_SHORT. That a slot returned RESIDENT counts as
not freed where reclaim then frees it in the same event is the model's (log entry 27). -/
def Obligations.EvictionWriteEnds : Prop :=
  (∀ (s : State) (j : Nat) (i : SlotNo) (o : Op), writeAwaitsLast j i o s → (s.slot i).writeInFlight = false →
     ((s.slot i).rescued = false → s.slotWait = [] →
       exec (.evictionWriteComplete j (.response .ack)) s =
         .next
           (settle
             (answerAll true (s.slot i).record.generation (s.slot i).writeReqs
               { s with
                 slots := s.slots.set i.val Slot.unused i.isLt,
                 pool := { s.pool with free := (s.slot i).cells.reverse ++ s.pool.free },
                 port := { s.port with inFlight := s.port.inFlight.eraseIdx j },
                 hostMem := s.hostMem.takeBeat o.beat }))) ∧
     ((s.slot i).rescued = true →
       ∃ t u,
         exec (.evictionWriteComplete j (.response .ack)) s = .next (settle u) ∧
           u =
             seekAfterReclaim
               (answerAll true (s.slot i).record.generation (s.slot i).writeReqs (serve i (s.slot i).waiting t)) ∧
           t =
             { s with
               slots :=
                 s.slots.set i.val
                   { s.slot i with
                     state := .resident, waiting := [], rescued := false, writeReqs := [], nextReqs := [],
                     wbFault := false }
                   i.isLt,
               recency := i :: s.recency.filter (· != i),
               port := { s.port with inFlight := s.port.inFlight.eraseIdx j },
               hostMem := s.hostMem.takeBeat o.beat })) ∧
  (∀ (s : State) (j : Nat) (i : SlotNo) (o : Op) (w : Waiter) (ws : List Waiter), writeAwaitsLast j i o s →
     (s.slot i).writeInFlight = false → (s.slot i).rescued = false → (s.slot i).writeReqs = [] →
     s.slotWait = w :: ws →
     let k := waiterKey s w
     ∃ t, exec (.evictionWriteComplete j (.response .ack)) s = .next (settle t) ∧
       t.slot i =
         { Slot.unused with
           state := .fetching, key := k, waiting := s.slotWait.filter fun v => waiterKey s v == k } ∧
       t.slotWait = (s.slotWait.filter fun v => waiterKey s v != k) ∧
       t.port =
         { s.port with
           inFlight := s.port.inFlight.eraseIdx j, list := s.port.list ++ [.fetch i k (homeAddr s k)] } ∧
       t.pool.free = (s.slot i).cells.reverse ++ s.pool.free ∧
       t.counts = { s.counts with misses := s.counts.misses + 1 } ∧
       (∀ c x, .tap c ∈ s.slotWait → s.ctx c = some x → x.key = k → t.ctx c = some { x with awaitRecord := true }) ∧
       (∀ c, .tap c ∉ s.slotWait → t.ctx c = s.ctx c) ∧ (∀ n, n ≠ i → t.slot n = s.slot n) ∧
       t.recency = s.recency ∧ t.attn = s.attn ∧ t.engine = s.engine ∧ keepsUnits s t) ∧
  (∀ (s : State) (j : Nat) (i : SlotNo) (o : Op) (e : BusEnd) (out : OpOutcome), s.op j = some o →
     (∃ k a image, o.request = .writeBack i k a image) → (s.slot i).writeInFlight = false →
     o.endBy s e = some (o, out) → out ≠ .ok →
     ∃ t, exec (.evictionWriteComplete j e) s =
         .next
           (settle
             (seekAfterReclaim
               (answerAll false (s.slot i).record.generation (s.slot i).writeReqs
                 (serve i (s.slot i).waiting t)))) ∧
       t.slot i =
         { s.slot i with
           state := .resident, waiting := [], rescued := false, writeReqs := [], nextReqs := [], dirty := true,
           wbFault := true } ∧
       t.recency = i :: s.recency.filter (· != i) ∧ (∀ k, k ≠ i → t.slot k = s.slot k) ∧
       t.port = portFaulted j o.request out (if out = .timeout then [o.beat] else []) s ∧
       t.attn = raised .memFault s ∧ tookOrNot o.beat s t ∧ t.pool = s.pool ∧ t.counts = s.counts ∧
       t.taps = s.taps ∧ t.slotWait = s.slotWait ∧ keepsUnits s t ∧ t.engine = s.engine ∧ t.clock = s.clock ∧
       t.tariff = s.tariff ∧ t.pending = s.pending) ∧
  (∀ s : State, s.slotWait = [] → seekAfterReclaim s = s) ∧
  (∀ (s : State) (k : SlotNo), s.slotWait ≠ [] → victim Slot.cleanEligible s = some k →
    seekAfterReclaim s = seekAfterReclaim (handOver k (cleanlyEvicted k s))) ∧
  ∀ s : State, s.slotWait ≠ [] → victim Slot.cleanEligible s = none →
    seekAfterReclaim s =
      match victim Slot.dirtyEligible s with
      | some k => dirtilyEvicted k s
      | none => { s with attn := raised .slotShort s }

/-- R39, R35: a flush-type write ends at a RESIDENT slot: its flags clear, a failure (an error or TIMEOUT) sets dirty
and wb_fault, its requesters are answered, and those that waited for the next write are answered too, or have it issued.
At a slot owed an eviction, a clean record is evicted at once, or returned RESIDENT and served when rescued, and a
record changed since, or one whose write failed, is written again as its eviction write. R156 to R158, R166: the answer
to RETIRE and FLUSH is a STATUS WRITE with the generation, that to FLUSH ALL counts its requests and failures, that to
an urgent command its result. -/
def Obligations.FlushTypeWriteEnds : Prop :=
  (∀ (s : State) (ok : Bool) (g : Half),
     let stores (c : Status) (result : Word) (u : ChangeUnit) : State :=
       { s with
         change := { u with state := .storing },
         port :=
           { s.port with
             list := s.port.list ++ [.statusWrite s.change.blockAddr result (statusHalf c)] } }
     let failed : Nat := s.change.failures + (if ok = true then 0 else 1)
     answer ok g .retire s = stores (if ok = true then .ok else .memFault) (g.zeroExtend 32) s.change ∧
     answer ok g .changeFlush s = stores (if ok = true then .ok else .memFault) (g.zeroExtend 32) s.change ∧
     (1 < s.change.outstanding →
       answer ok g .flushAll s =
         { s with
           change := { s.change with outstanding := s.change.outstanding - 1, failures := failed } }) ∧
     (s.change.outstanding = 1 →
       answer ok g .flushAll s =
         stores (if failed = 0 then .ok else .memFault) (BitVec.ofNat 32 failed)
           { s.change with outstanding := 0, failures := failed }) ∧
     answer ok g .urgent s =
       { s with
         urgent := { s.urgent with state := .done, result := if ok = true then .ok else .memFault, value := g },
         attn := raised .urgentDone s } ∧
     answer ok g .drain s = s ∧ answerAll ok g [] s = s ∧
     ∀ q qs, answerAll ok g (q :: qs) s = answerAll ok g qs (answer ok g q s)) ∧
  (∀ (s : State) (j : Nat) (i : SlotNo) (o : Op), writeAwaitsLast j i o s → (s.slot i).writeInFlight = true →
     (s.slot i).state = .resident →
     let g := (s.slot i).record.generation
     let ended : Slot :=
       { s.slot i with writeInFlight := false, cleaner := false, writeReqs := [], wbFault := false }
     let u : State :=
       answerAll true g (s.slot i).writeReqs
         { s with
           slots := s.slots.set i.val ended i.isLt, counts := writeCounted (s.slot i) s,
           port := { s.port with inFlight := s.port.inFlight.eraseIdx j }, hostMem := s.hostMem.takeBeat o.beat }
     ((s.slot i).nextReqs = [] → exec (.flushWriteComplete j (.response .ack)) s = .next (settle u)) ∧
     ((s.slot i).nextReqs ≠ [] → (s.slot i).dirty = false →
       exec (.flushWriteComplete j (.response .ack)) s =
         .next
           (settle
             (answerAll true g (s.slot i).nextReqs
               { u with slots := s.slots.set i.val { ended with nextReqs := [] } i.isLt }))) ∧
     ((s.slot i).nextReqs ≠ [] → (s.slot i).dirty = true →
       exec (.flushWriteComplete j (.response .ack)) s = .next (settle (flushWrite i (s.slot i).nextReqs u)))) ∧
  (∀ (s : State) (j : Nat) (i : SlotNo) (o : Op) (e : BusEnd) (out : OpOutcome), s.op j = some o →
     (∃ k a image, o.request = .writeBack i k a image) → (s.slot i).writeInFlight = true →
     (s.slot i).state = .resident → o.endBy s e = some (o, out) → out ≠ .ok →
     ∃ t,
       t.slots =
           s.slots.set i.val
             { s.slot i with
               writeInFlight := false, cleaner := false, writeReqs := [], dirty := true, wbFault := true } i.isLt ∧
       t.counts = writeCounted (s.slot i) s ∧
       t.port = portFaulted j o.request out (if out = .timeout then [o.beat] else []) s ∧
       t.attn = raised .memFault s ∧ tookOrNot o.beat s t ∧ t.recency = s.recency ∧ t.pool = s.pool ∧
       t.taps = s.taps ∧ keepsUnits s t ∧
       let u := answerAll false (s.slot i).record.generation (s.slot i).writeReqs t
       ((s.slot i).nextReqs = [] → exec (.flushWriteComplete j e) s = .next (settle u)) ∧
         ((s.slot i).nextReqs ≠ [] →
           exec (.flushWriteComplete j e) s = .next (settle (flushWrite i (s.slot i).nextReqs u)))) ∧
  (∀ (s : State) (i : SlotNo) (qs : List Requester),
     let r : Record := { (s.slot i).record with generation := (s.slot i).record.generation + 1 }
     (flushWrite i qs s).slots =
         s.slots.set i.val
           { s.slot i with
             record := r, dirty := false, wbFault := false, writeInFlight := true, writeReqs := qs,
             nextReqs := [] }
           i.isLt ∧
       (flushWrite i qs s).port =
         { s.port with
           list :=
             s.port.list ++
               [.writeBack i (s.slot i).key (homeAddr s (s.slot i).key)
                 (bytesWords (encodeImage r (s.products i)))] } ∧
       keepsUnits s (flushWrite i qs s)) ∧
  (∀ (s : State) (j : Nat) (i : SlotNo) (o : Op), writeAwaitsLast j i o s → (s.slot i).writeInFlight = true →
     (s.slot i).state = .evicting → (s.slot i).writeReqs = [] →
     let g := (s.slot i).record.generation
     let counts := writeCounted (s.slot i) s
     ((s.slot i).dirty = false → (s.slot i).rescued = false → s.slotWait = [] →
       ∃ t, exec (.flushWriteComplete j (.response .ack)) s =
           .next (settle (answerAll true g (s.slot i).nextReqs t)) ∧
         t.slot i = Slot.unused ∧ t.pool.free = (s.slot i).cells.reverse ++ s.pool.free ∧
         t.counts = { counts with cleanEvictions := counts.cleanEvictions + 1 } ∧ t.port.list = s.port.list ∧
         (∀ k, k ≠ i → t.slot k = s.slot k) ∧ keepsUnits s t) ∧
     ((s.slot i).dirty = false → (s.slot i).rescued = true →
       ∃ t, exec (.flushWriteComplete j (.response .ack)) s =
           .next (settle (answerAll true g (s.slot i).nextReqs (serve i (s.slot i).waiting t))) ∧
         t.slot i =
           { s.slot i with
             state := .resident, writeInFlight := false, cleaner := false, wbFault := false, waiting := [],
             rescued := false, writeReqs := [], nextReqs := [] } ∧
         t.recency = i :: s.recency.filter (· != i) ∧ t.counts = counts ∧ t.port.list = s.port.list ∧
         t.pool = s.pool ∧ (∀ k, k ≠ i → t.slot k = s.slot k) ∧ keepsUnits s t) ∧
     ((s.slot i).dirty = true →
       ∃ t, exec (.flushWriteComplete j (.response .ack)) s = .next (settle t) ∧
         writtenAgain i counts s t ∧ t.attn = s.attn)) ∧
  ∀ (s : State) (j : Nat) (i : SlotNo) (o : Op) (e : BusEnd) (out : OpOutcome), s.op j = some o →
    (∃ k a image, o.request = .writeBack i k a image) → (s.slot i).writeInFlight = true →
    (s.slot i).state = .evicting → (s.slot i).writeReqs = [] → o.endBy s e = some (o, out) → out ≠ .ok →
    ∃ t, exec (.flushWriteComplete j e) s = .next (settle t) ∧ writtenAgain i (writeCounted (s.slot i) s) s t ∧
      t.attn = raised .memFault s ∧ tookOrNot o.beat s t

/-- R40, R38, R16, R44, R43: the cleaner, RUNNING with fewer than two of its writes in flight and fewer than sixteen
slots FREE or clean eligible, writes back the dirty eligible slot nearest the tail; reclaim evicts the clean eligible
slot nearest the tail and hands it to the oldest entry of the slot-wait list and the later ones of its key (R43). R29:
which slots are eligible, and which of them is nearest the tail. -/
def Obligations.CleanerAndReclaim : Prop :=
  (∀ x : Slot,
     (x.cleanEligible = true ↔
       x.state = .resident ∧ x.writeInFlight = false ∧ x.wbFault = false ∧ x.dirty = false) ∧
     (x.dirtyEligible = true ↔
       x.state = .resident ∧ x.writeInFlight = false ∧ x.wbFault = false ∧ x.dirty = true)) ∧
  (∀ (s : State) (p : Slot → Bool) (i : SlotNo),
     victim p s = some i ↔
       p (s.slot i) = true ∧
         ∃ head tail, s.recency = head ++ i :: tail ∧ ∀ j, j ∈ tail → p (s.slot j) = false) ∧
  (∀ s : State,
     cleanerActs s = true ↔
       s.engine.state = .running ∧ s.counts.cleanerWrites < 2 ∧
         s.slots.toList.countP (fun x => x.state == .free || x.cleanEligible) < 16) ∧
  (∀ (s : State) (i : SlotNo), cleanerActs s = true → victim Slot.dirtyEligible s = some i →
     exec .cleanerWrite s =
       .next
         (settle
           { s with
             slots :=
               s.slots.set i.val
                 { s.slot i with
                   record := { (s.slot i).record with generation := (s.slot i).record.generation + 1 },
                   dirty := false, wbFault := false, writeInFlight := true, cleaner := true, writeReqs := [],
                   nextReqs := [] }
                 i.isLt,
             counts := { s.counts with cleanerWrites := s.counts.cleanerWrites + 1 },
             port := { s.port with list := s.port.list ++ [writeBackAsked i s] } })) ∧
  (∀ (s : State) (i : SlotNo),
     (s.slotWait = [] → handOver i s = s) ∧
     ∀ w ws, s.slotWait = w :: ws →
       let k := waiterKey s w
       let t := handOver i s
       t.slots =
           s.slots.set i.val
             { Slot.unused with
               state := .fetching, key := k, waiting := s.slotWait.filter fun v => waiterKey s v == k } i.isLt ∧
         t.slotWait = (s.slotWait.filter fun v => waiterKey s v != k) ∧
         t.port = { s.port with list := s.port.list ++ [.fetch i k (homeAddr s k)] } ∧
         t.counts = { s.counts with misses := s.counts.misses + 1 } ∧
         (∀ c x, .tap c ∈ s.slotWait → s.ctx c = some x →
           t.ctx c = if x.key = k then some { x with awaitRecord := true } else s.ctx c) ∧
         (∀ c, .tap c ∉ s.slotWait → t.ctx c = s.ctx c) ∧ t.recency = s.recency ∧ t.pool = s.pool ∧
         t.attn = s.attn ∧ t.engine = s.engine ∧ keepsUnits s t ∧ keepsHost s t) ∧
  (∀ (s : State) (i : SlotNo) (w : Waiter) (ws : List Waiter), s.slotWait = w :: ws →
     victim Slot.cleanEligible s = some i →
     let k := waiterKey s w
     ∃ t, exec .reclaim s = .next (settle t) ∧
       t.slot i =
         { Slot.unused with
           state := .fetching, key := k, waiting := s.slotWait.filter fun v => waiterKey s v == k } ∧
       t.slotWait = (s.slotWait.filter fun v => waiterKey s v != k) ∧
       t.port = { s.port with list := s.port.list ++ [.fetch i k (homeAddr s k)] } ∧
       t.recency = s.recency.filter (· != i) ∧ t.pool.free = (s.slot i).cells.reverse ++ s.pool.free ∧
       t.counts =
         { s.counts with cleanEvictions := s.counts.cleanEvictions + 1, misses := s.counts.misses + 1 } ∧
       (∀ c x, .tap c ∈ s.slotWait → s.ctx c = some x → x.key = k → t.ctx c = some { x with awaitRecord := true }) ∧
       (∀ c, .tap c ∉ s.slotWait → t.ctx c = s.ctx c) ∧ (∀ j, j ≠ i → t.slot j = s.slot j) ∧ t.attn = s.attn ∧
       t.engine = s.engine ∧ keepsUnits s t ∧ keepsHost s t)

/-- R60, R61, R62: the request at the head of the list begins when fewer than four operations are in flight; a good beat
that is not the last keeps the word read, or counts the acknowledgement that memory has taken the beat. A BLOCK READ
reads its five header words, then the words that cover a payload of 1 to 184 bytes; a STATUS WRITE writes the result
word at offset 4 first, and the two status bytes at offset 8 second (R194): the code, then complete and, for OK alone,
ok (R159, Table 12.3). With a write beat the master drives the data and odd parity on each byte lane (section 4.3; that
the lanes not enabled carry 0 is the model's: log entry 29). -/
def Obligations.PortBeginsAndBeatsGoOn : Prop :=
  (∀ b : Beat,
     b.dataDriven = (if b.write = true then some (b.data, oddParity b.data) else none) ∧
       ∀ lane : Fin 4,
         ((List.range 8).countP (fun k => b.data.getLsbD (8 * lane.val + k)) +
             ((oddParity b.data).getLsbD lane.val).toNat) % 2 = 1) ∧
  (∀ c : Status,
     let code : Nat :=
       match c with
       | .ok => 0 | .notEnrolled => 1 | .keyClash => 2 | .exists_ => 3 | .idMismatch => 4 | .noProduct => 5
       | .productFull => 6 | .balanceLimit => 7 | .cellShort => 8 | .memFault => 9 | .damaged => 10
       | .badCommand => 11 | .badArgument => 12 | .aborted => 13
     (statusHalf c).extractLsb' 0 8 = BitVec.ofNat 8 code ∧
       (statusHalf c).extractLsb' 8 8 = if c = .ok then 0b11 else 0b01) ∧
  (∀ s : State,
     (∀ q rest, s.port.list = q :: rest → s.port.inFlight.length < 4 →
       exec .portBegin s =
         .next
           { s with
             port :=
               { s.port with
                 list := rest,
                 inFlight :=
                   s.port.inFlight ++ [{ request := q, started := s.clock.timeBase, words := [], acked := 0 }] } }) ∧
     (s.port.list = [] ∨ 4 ≤ s.port.inFlight.length → exec .portBegin s = .next s)) ∧
  (∀ (s : State) (j : Nat) (o : Op), s.op j = some o →
     (∀ i k a w, o.request = .fetch i k a → o.words.length < 45 →
       exec (.beatResponse j (.data w (oddParity w))) s =
         .next
           { s with
             port := { s.port with inFlight := s.port.inFlight.set j { o with words := o.words ++ [w] } } }) ∧
     (∀ i k a image, o.request = .writeBack i k a image → o.acked < 45 →
       exec (.beatResponse j .ack) s =
         .next
           { s with
             port := { s.port with inFlight := s.port.inFlight.set j { o with acked := o.acked + 1 } },
             hostMem :=
               s.hostMem.takeBeat
                 { addr := (a &&& ~~~3#32) + BitVec.ofNat 32 (4 * o.acked), write := true,
                   data := image.getD o.acked 0, lanes := 15 } }) ∧
     (∀ a gone w, o.request = .blockRead a gone →
       let ws := o.words ++ [w]
       let n := ((ws.getD 2 0).extractLsb' 24 8).toNat
       (ws.length < 5 ∨ (n ≤ 184 ∧ ws.length < 5 + (n + 3) / 4) →
         exec (.beatResponse j (.data w (oddParity w))) s =
           .next { s with port := { s.port with inFlight := s.port.inFlight.set j { o with words := ws } } }) ∧
       (5 ≤ ws.length → 184 < n ∨ 5 + (n + 3) / 4 ≤ ws.length →
         o.respond (.data w (oddParity w)) = some ({ o with words := ws }, some .ok)) ∧
       o.beat =
         { addr := (a &&& ~~~3#32) + BitVec.ofNat 32 (4 * o.words.length), write := false, data := 0, lanes := 0 }) ∧
     (∀ a result h, o.request = .statusWrite a result h →
       (o.acked = 0 →
         exec (.beatResponse j .ack) s =
           .next
             { s with
               port := { s.port with inFlight := s.port.inFlight.set j { o with acked := 1 } },
               hostMem :=
                 s.hostMem.takeBeat { addr := (a &&& ~~~3#32) + 4#32, write := true, data := result, lanes := 15 } }) ∧
       (o.acked = 1 →
         o.beat = { addr := (a &&& ~~~3#32) + 8#32, write := true, data := h.zeroExtend 32, lanes := 3 })))

/-- R64, R67, R161: the response timer runs out two milliseconds after the operation began, not before: the operation
ends with TIMEOUT, the fault is recorded, its beat stays outstanding on the bus; a BLOCK READ so ended halts the unit.
The timeout of any other operation is that operation's failing end (R32, R36, R39, R145, R162). -/
def Obligations.PortTimesOut : Prop :=
  ∀ (s : State) (j : Nat) (o : Op), s.op j = some o →
    (elapsedMs s o.started < 2 → exec (.portTimeout j) s = .next s) ∧
    (∀ a, 2 ≤ elapsedMs s o.started → o.request = .blockRead a false →
      exec (.portTimeout j) s =
        .next
          (settle
            { s with
              port := portFaulted j (.blockRead a false) .timeout [o.beat] s, attn := raised .memFault s,
              change := { s.change with state := .halted, stop := .none, rereading := false } })) ∧
    (∀ i k a, o.request = .fetch i k a → exec (.portTimeout j) s = exec (.fetchFail j .timeout) s) ∧
    (∀ i k a image, o.request = .writeBack i k a image →
      exec (.portTimeout j) s =
        (if (s.slot i).writeInFlight then exec (.flushWriteComplete j .timeout) s
         else exec (.evictionWriteComplete j .timeout) s)) ∧
    (∀ a result h, o.request = .statusWrite a result h →
      exec (.portTimeout j) s = exec (.statusWriteFail j .timeout) s) ∧
    (∀ a, o.request = .blockRead a true → exec (.portTimeout j) s = exec (.abandonedReadEnd j .timeout) s) ∧
    (2 ≤ elapsedMs s o.started → o.endBy s .timeout = some (o, .timeout))

/-- R65: a late response is discarded and counted, and reaches nothing else; a late acknowledgement says that memory took
the beat's word (log entry 8), and last of all words of its address (log entry 26). -/
def Obligations.LateResponsesAreDiscarded : Prop :=
  ∀ (s : State) (k : Nat) (b : Beat) (r : BusResponse), s.port.stray[k]? = some b → b.answeredBy r = true →
    exec (.lateResponse k r) s =
      .next
        { s with
          port := { s.port with stray := s.port.stray.eraseIdx k, late := satInc16 s.port.late },
          hostMem := if r = .ack then s.hostMem.takeBeat b else s.hostMem }

/-! ## The Change Unit -/

/-- R142, R143: START in IDLE or HALTED, and RESUME in SUSPENDED or in IDLE with a valid last completed block, are taken
with the engine RUNNING: the unit is READING and a BLOCK READ of the start address, the held link, or the last completed
block joins the request list. -/
def Obligations.StartAndResume : Prop :=
  ∀ s : State, s.running = true →
    let reads (a : Word) (again : Bool) (stop : PendingStop) : State :=
      { s with
        change :=
          { s.change with
            state := .reading, blockAddr := a, refused := false, rereading := again, stop := stop },
        port := { s.port with list := s.port.list ++ [.blockRead a false] } }
    (s.change.state = .idle ∨ s.change.state = .halted →
      exec .start s = .next (settle (reads (s.change.listAddr &&& ~~~7#32) false .none))) ∧
    (s.change.state = .suspended →
      exec .resume s = .next (settle (reads s.change.heldLink s.change.rereading s.change.stop))) ∧
    (s.change.state = .idle → s.change.lastValid = true →
      exec .resume s = .next (settle (reads s.change.last true s.change.stop)))

/-- R144, R145, R146, R141, Table 8.2: SUSPEND sets the pending stop; ABORT abandons a read, withdraws a waiting request
and writes ABORTED, or sets the pending stop; a control that its state does not take, or a code that names none, sets the
refused flag alone (that the whole word is the code is the model's: log entry 24). -/
def Obligations.ControlsOfAListInProgress : Prop :=
  (∀ s : State, s.isOpen = true →
     (s.change.busy = true → s.change.stop ≠ .abort →
       exec .suspend s = .next { s with change := { s.change with stop := .suspend, refused := false } }) ∧
     (s.change.state = .reading → s.change.abandoned = false →
       exec .abort s =
         .next
           (settle
             { s with
               change :=
                 { s.change with
                   state := .idle, stop := .none, abandoned := true, refused := false, rereading := false },
               port :=
                 { s.port with
                   list := s.port.list.map Request.abandon,
                   inFlight := s.port.inFlight.map fun o => { o with request := o.request.abandon } },
               attn := raised .chgStopped s })) ∧
     (s.change.state = .waiting →
       ∃ t, exec .abort s = .next (settle t) ∧
         t.change = { s.change with state := .storing, stop := .abort, refused := false } ∧
         t.port.list = s.port.list ++ [.statusWrite s.change.blockAddr 0 (statusHalf .aborted)] ∧
         t.slotWait = s.slotWait.filter (· != .change) ∧
         (∀ i, t.slot i = { s.slot i with waiting := (s.slot i).waiting.filter (· != .change) }) ∧
         t.lines = s.lines ∧ t.taps = s.taps ∧ t.pool = s.pool ∧ t.attn = s.attn ∧ keepsHost s t) ∧
     (s.change.state = .storing →
       exec .abort s = .next { s with change := { s.change with stop := .abort, refused := false } })) ∧
  (∀ (s : State) (v : Word), s.isOpen = true →
     let refused : Host.Outcome State Fault Refusal := .next { s with change := { s.change with refused := true } }
     (s.running = false → exec .start s = refused ∧ exec .resume s = refused) ∧
     (s.change.busy = true → exec .start s = refused ∧ exec .resume s = refused) ∧
     (s.change.busy = false → exec .suspend s = refused ∧ exec .abort s = refused) ∧
     (s.change.state = .suspended → exec .start s = refused) ∧
     (s.change.state = .halted → exec .resume s = refused) ∧
     (s.change.stop = .abort → exec .suspend s = refused) ∧
     (s.change.state = .idle → s.change.lastValid = false → exec .resume s = refused) ∧
     (s.change.state = .reading → s.change.abandoned = true → exec .abort s = refused) ∧
     (4 < v.toNat ∨ v = 0 → exec (.changeCtrlRefused v) s = refused ∧ exec (.registerWrite 0x034 v) s = refused))

/-- R147, R148: a block that fails its checks is completed unapplied with the status of the check, and NOP with OK, both
with result 0: the unit is STORING and its STATUS WRITE is asked for. -/
def Obligations.NopAndFailedChecks : Prop :=
  ∀ (s : State) (i : Nat) (w : Word) (p : BitVec 4) (o : Op), blockArrives false i w p s = some o →
    let b := parseBlock o.words
    (b.command = 0 → b.length.toNat ≤ 184 →
      ∃ t, exec (.nop i w p) s = .next (settle t) ∧ blockCompletes s.change.key .ok 0 i o s t ∧ t.slots = s.slots ∧
        t.lines = s.lines ∧ t.attn = s.attn ∧ t.pool = s.pool ∧ keepsHost s t) ∧
    (∀ c, (184 < b.length.toNat ∧ c = Status.badArgument) ∨
        (b.length.toNat ≤ 184 ∧ commandOf b.command = none ∧ c = .badCommand) ∨
        (b.length.toNat ≤ 184 ∧ (∃ d, commandOf b.command = some d ∧ lengthFits d b = false) ∧ c = .badArgument) →
      ∃ t, exec (.blockCheckFailed i w p) s = .next (settle t) ∧ blockCompletes s.change.key c 0 i o s t ∧
        t.slots = s.slots ∧ t.lines = s.lines ∧ t.attn = s.attn ∧ t.pool = s.pool ∧ keepsHost s t)

/-- R129, R130: LOAD CLASS with an index and values in range, and LOAD FARES, write the shadow bank whole and answer OK
with the epoch; LOAD CLASS out of range answers BAD_ARGUMENT and writes nothing; the active bank never changes. -/
def Obligations.LoadsWriteTheShadowBank : Prop :=
  ∀ (s : State) (i : Nat) (w : Word) (p : BitVec 4) (o : Op),
    (blockReady .loadClass i w p s o →
      (∀ n : ClassNo, (parseBlock o.words).index = n.val → (classEntryOf (parseBlock o.words).payload).inRange = true →
        ∃ t, exec (.loadClass i w p) s = .next (settle t) ∧
          blockCompletes s.change.key .ok (s.tariff.epoch.zeroExtend 32) i o s t ∧
          t.tariff.active = s.tariff.active ∧ t.tariff.shadow.fares = s.tariff.shadow.fares ∧
          t.tariff.shadow.classes =
            s.tariff.shadow.classes.set n.val (classEntryOf (parseBlock o.words).payload) n.isLt ∧
          t.tariff.activeB = s.tariff.activeB ∧ t.tariff.epoch = s.tariff.epoch ∧ t.tariff.view = s.tariff.view ∧
          t.ranges = s.ranges ∧ t.slots = s.slots) ∧
      (7 < (parseBlock o.words).index ∨ (classEntryOf (parseBlock o.words).payload).inRange = false →
        ∃ t, exec (.loadClass i w p) s = .next (settle t) ∧ blockCompletes s.change.key .badArgument 0 i o s t ∧
          keepsHost s t ∧ t.slots = s.slots)) ∧
    (blockReady .loadFares i w p s o →
      ∃ t, exec (.loadFares i w p) s = .next (settle t) ∧
        blockCompletes s.change.key .ok (s.tariff.epoch.zeroExtend 32) i o s t ∧
        t.tariff.active = s.tariff.active ∧ t.tariff.shadow.classes = s.tariff.shadow.classes ∧
        (∀ a b : Group,
          t.tariff.shadow.baseFare a b = halfAt (parseBlock o.words).payload (16 * a.val + 2 * b.val)) ∧
        t.tariff.activeB = s.tariff.activeB ∧ t.tariff.epoch = s.tariff.epoch ∧ t.ranges = s.ranges ∧
        t.slots = s.slots)

/-- R131, R132: COPY ACTIVE makes the shadow bank a copy of the active one and answers OK with the epoch; SWITCH TARIFF
exchanges the banks' roles, advances the epoch by one, wrapping, and answers OK with the new epoch; a payload is refused
BAD_ARGUMENT. -/
def Obligations.CopyActiveAndSwitchTariff : Prop :=
  ∀ (s : State) (i : Nat) (w : Word) (p : BitVec 4) (o : Op), blockArrives false i w p s = some o →
    let b := parseBlock o.words
    (b.command = 0x13#8 → b.length = 0 →
      ∃ t, exec (.copyActive i w p) s = .next (settle t) ∧
        blockCompletes s.change.key .ok (s.tariff.epoch.zeroExtend 32) i o s t ∧
        t.tariff.shadow = s.tariff.active ∧ t.tariff.active = s.tariff.active ∧
        t.tariff.activeB = s.tariff.activeB ∧ t.tariff.epoch = s.tariff.epoch ∧ t.tariff.view = s.tariff.view ∧
        t.ranges = s.ranges ∧ t.slots = s.slots ∧ t.lines = s.lines) ∧
    (b.command = 0x14#8 → b.length = 0 →
      ∃ t, exec (.switchTariff i w p) s = .next (settle t) ∧
        blockCompletes s.change.key .ok ((s.tariff.epoch + 1).zeroExtend 32) i o s t ∧
        t.tariff.active = s.tariff.shadow ∧ t.tariff.shadow = s.tariff.active ∧
        t.tariff.activeB = (!s.tariff.activeB) ∧ t.tariff.epoch = s.tariff.epoch + 1 ∧
        t.tariff.view = s.tariff.view ∧ t.ranges = s.ranges ∧ t.slots = s.slots ∧ t.lines = s.lines) ∧
    (b.command = 0x13#8 ∨ b.command = 0x14#8 → b.length ≠ 0 →
      ∃ t, exec (.blockCheckFailed i w p) s = .next (settle t) ∧
        blockCompletes s.change.key .badArgument 0 i o s t ∧ t.tariff = s.tariff)

/-- R138, R134: SET RANGE with an index and fields in range rewrites one rule and answers OK with the number of rules in
force; otherwise it answers BAD_ARGUMENT and writes nothing. R135, R136: the rule written covers the identifiers that
agree with its base above the exponent, and among covering rules the highest level wins, the lowest number among equals.
-/
def Obligations.SetRangeAndTheWinningRule : Prop :=
  (∀ (s : State) (i : Nat) (w : Word) (p : BitVec 4) (o : Op), blockReady .setRange i w p s o →
    (∀ (n : Fin 16) r, (parseBlock o.words).index = n.val → rangeRuleOf (parseBlock o.words).payload = some r →
      ∃ t, exec (.setRange i w p) s = .next (settle t) ∧ t.ranges = s.ranges.set n.val r n.isLt ∧
        blockCompletes s.change.key .ok (BitVec.ofNat 32 (rulesInForce t)) i o s t ∧ t.tariff = s.tariff ∧
        t.slots = s.slots ∧ t.lines = s.lines ∧ t.lastWatch = s.lastWatch) ∧
    (15 < (parseBlock o.words).index ∨ rangeRuleOf (parseBlock o.words).payload = none →
      ∃ t, exec (.setRange i w p) s = .next (settle t) ∧ blockCompletes s.change.key .badArgument 0 i o s t ∧
        keepsHost s t)) ∧
  ∀ (s : State) (x : Ident) (n : Fin 16),
    (∀ r : RangeRule, r.covers x = true ↔ r.level.val ≠ 0 ∧ x.toNat / 2 ^ r.exponent.val = r.base.toNat / 2 ^ r.exponent.val) ∧
    (winningRule x s = some n ↔
      (s.ranges.get n).covers x = true ∧
        ∀ m, (s.ranges.get m).covers x = true →
          (s.ranges.get m).level < (s.ranges.get n).level ∨
            ((s.ranges.get m).level = (s.ranges.get n).level ∧ n ≤ m))

/-- R149, R150, R25: a record command whose key's slot is not RESIDENT waits on the slot, rescues it, starts its fetch
in a FREE slot or in a clean victim's, or joins the slot-wait list; one that fails the identity and state check answers
with its status and the account key, and the record stands. -/
def Obligations.RecordCommandsNotApplied : Prop :=
  (∀ (s : State) (i : Nat) (w : Word) (p : BitVec 4) (o : Op),
     let waits (t : State) : Prop :=
       t.change =
           { s.change with
             state := .waiting, block := parseBlock o.words, heldLink := (parseBlock o.words).link,
             key := blockKey o s } ∧
         t.port.inFlight = s.port.inFlight.eraseIdx i ∧ t.lines = s.lines ∧ t.taps = s.taps ∧
         t.urgent = s.urgent ∧ t.marks = s.marks ∧ keepsHost s t
     ∀ c, c ∈ recordCommands → blockReady c i w p s o →
       (∀ k, findSlot (blockKey o s) s = some k → (s.slot k).state ≠ .resident →
         ∃ t, exec (c.instr i w p) s = .next (settle t) ∧ waits t ∧ t.recency = s.recency ∧ t.pool = s.pool ∧
           t.attn = s.attn ∧ t.slotWait = s.slotWait ∧
           t.counts =
             { s.counts with
               rescues :=
                 if (s.slot k).state = .evicting ∧ (s.slot k).rescued = false then s.counts.rescues + 1
                 else s.counts.rescues } ∧
           t.slots =
             s.slots.set k.val
               { s.slot k with
                 waiting := (s.slot k).waiting ++ [.change],
                 rescued := (s.slot k).rescued || (s.slot k).state == .evicting } k.isLt) ∧
       (findSlot (blockKey o s) s = none → (∀ v, v ∈ s.slotWait → v ≠ .change ∧ waiterKey s v ≠ blockKey o s) →
         (∀ k, firstFree s = some k →
           ∃ t, exec (c.instr i w p) s = .next (settle t) ∧ waits t ∧ t.recency = s.recency ∧ t.pool = s.pool ∧
             t.attn = s.attn ∧ t.counts = { s.counts with misses := s.counts.misses + 1 } ∧
             t.port.list = s.port.list ++ [.fetch k (blockKey o s) (homeAddr s (blockKey o s))] ∧
             t.slots =
               s.slots.set k.val
                 { Slot.unused with state := .fetching, key := blockKey o s, waiting := [.change] } k.isLt) ∧
         (∀ k, firstFree s = none → victim Slot.cleanEligible s = some k →
           ∃ t, exec (c.instr i w p) s = .next (settle t) ∧ waits t ∧ t.recency = s.recency.filter (· != k) ∧
             t.pool.free = (s.slot k).cells.reverse ++ s.pool.free ∧ t.attn = s.attn ∧
             t.counts =
               { s.counts with misses := s.counts.misses + 1, cleanEvictions := s.counts.cleanEvictions + 1 } ∧
             t.port.list = s.port.list ++ [.fetch k (blockKey o s) (homeAddr s (blockKey o s))] ∧
             t.slot k = { Slot.unused with state := .fetching, key := blockKey o s, waiting := [.change] } ∧
             ∀ j, j ≠ k → t.slot j = s.slot j) ∧
         (firstFree s = none → victim Slot.cleanEligible s = none →
           ∃ t, exec (c.instr i w p) s = .next (settle t) ∧ waits t ∧ t.slotWait = s.slotWait ++ [.change] ∧
             t.pool = s.pool ∧
             (victim Slot.dirtyEligible s = none →
               t.attn = raised .slotShort s ∧ t.slots = s.slots ∧ t.recency = s.recency) ∧
             (∀ k, victim Slot.dirtyEligible s = some k →
               let u := dirtilyEvicted k s
               t.attn = s.attn ∧ t.slots = u.slots ∧ t.recency = u.recency ∧ t.counts = u.counts ∧
                 t.port.list = u.port.list))) ∧
       (findSlot (blockKey o s) s = none → (∃ v, v ∈ s.slotWait ∧ v ≠ .change ∧ waiterKey s v = blockKey o s) →
         ∃ t, exec (c.instr i w p) s = .next (settle t) ∧ waits t ∧ t.slotWait = s.slotWait ++ [.change] ∧
           t.slots = s.slots ∧ t.recency = s.recency ∧ t.pool = s.pool ∧ t.attn = s.attn ∧ t.counts = s.counts ∧
           t.port.list = s.port.list)) ∧
  (∀ (s : State) (i : Nat) (w : Word) (p : BitVec 4) (o : Op) (k : SlotNo) (c : Status),
     findResident (blockKey o s) s = some k →
     let x := (parseBlock o.words).ident
     let r := (s.slot k).record
     let refused (e : Host.Outcome State Fault Refusal) : Prop :=
       ∃ t, e = .next (settle t) ∧ blockCompletes (blockKey o s) c ((blockKey o s).zeroExtend 32) i o s t ∧
         t.slots = s.slots ∧ t.recency = k :: s.recency.filter (· != k) ∧ t.pool = s.pool ∧ t.marks = s.marks ∧
         commandFrame k s t
     ((r.state ≠ .empty ∧ r.ident = x ∧ c = .exists_) ∨ (r.state ≠ .empty ∧ r.ident ≠ x ∧ c = .keyClash) →
       blockReady .enroll i w p s o → refused (exec (.enroll i w p) s)) ∧
     ((r.state = .empty ∧ c = .notEnrolled) ∨ (r.state ≠ .empty ∧ r.ident ≠ x ∧ c = .idMismatch) →
       (blockReady .amend i w p s o → refused (exec (.amend i w p) s)) ∧
       (blockReady .adjust i w p s o → refused (exec (.adjust i w p) s)) ∧
       (blockReady .addProduct i w p s o → refused (exec (.addProduct i w p) s)) ∧
       (blockReady .removeProduct i w p s o → refused (exec (.removeProduct i w p) s)) ∧
       (blockReady .block i w p s o → refused (exec (.block i w p) s)) ∧
       (blockReady .unblock i w p s o → refused (exec (.unblock i w p) s)) ∧
       (blockReady .retire i w p s o → refused (exec (.retire i w p) s)) ∧
       (blockReady .flush i w p s o → refused (exec (.flush i w p) s))))

/-- R151, R9, R50, R55: ENROLL at an EMPTY record with its arguments in range and its cells free writes a new ACTIVE
record with its products, uses at 0, and answers OK with the key; an argument out of range, or an entry whose kind byte
is no code, answers BAD_ARGUMENT with slots and cells as they were; short of cells, it first frees the clean eligible
slot with cells nearest the recency tail and hands it over (R33, R43), and where none is left it answers CELL_SHORT and
raises it, with no dirty slot evicted. -/
def Obligations.EnrollWritesTheRecord : Prop :=
  ∀ (s : State) (i : Nat) (w : Word) (p : BitVec 4) (o : Op) (k : SlotNo), recordReady .enroll i w p k s o →
    let b := parseBlock o.words
    let key := (blockKey o s).zeroExtend 32
    (∀ (c : ClassNo) (ps : List ProductEntry), (byteAt b.payload 0).toNat = c.val → b.ident ≠ 0 →
      (byteAt b.payload 1).toNat ≤ 12 → -65535 ≤ (wordAt b.payload 4).toInt →
      (wordAt b.payload 4).toInt ≤ 16777215 →
      decodeProducts b.payload 8 (byteAt b.payload 1).toNat = some ps → ps.length ≤ s.pool.free.length →
      s.pool.free.Nodup → (s.slot k).cells = [] →
      ∃ t, exec (.enroll i w p) s = .next (settle t) ∧ blockCompletes (blockKey o s) .ok key i o s t ∧
        t.slot k =
          { s.slot k with
            dirty := true, cells := s.pool.free.take ps.length,
            record :=
              { Record.empty (s.slot k).record.generation with
                ident := b.ident, state := .active, fareClass := c, balance := (wordAt b.payload 4).toInt,
                tokens := Fin.ofNat 16 (s.tariff.active.classEntry c).burst.toNat,
                refillMark := s.clock.seconds } } ∧
        t.products k = ps.map (fun e => { e with uses := 0 }) ∧ t.pool.free = s.pool.free.drop ps.length ∧
        t.recency = k :: s.recency.filter (· != k) ∧ t.marks = s.marks ∧ commandFrame k s t) ∧
    (7 < (byteAt b.payload 0).toNat ∨ b.ident = 0 ∨ 12 < (byteAt b.payload 1).toNat ∨
        16777215 < (wordAt b.payload 4).toInt ∨ (wordAt b.payload 4).toInt < -65535 ∨
        (∃ j, j < (byteAt b.payload 1).toNat ∧ byteAt b.payload (8 + 12 * j) ≠ 1 ∧
          byteAt b.payload (8 + 12 * j) ≠ 2) →
      ∃ t, exec (.enroll i w p) s = .next (settle t) ∧ blockCompletes (blockKey o s) .badArgument key i o s t ∧
        t.slots = s.slots ∧ t.pool = s.pool ∧ commandFrame k s t) ∧
    (∀ c ps v, enrollArgs b = some (c, ps) → s.pool.free.length < ps.length → cellVictim k s = some v →
      (∀ u, u ∈ s.slotWait → u ≠ .change ∧ waiterKey s u ≠ blockKey o s) →
      exec (.enroll i w p) s = exec (.enroll i w p) (handOver v (cleanlyEvicted v s))) ∧
    (∀ c ps, enrollArgs b = some (c, ps) → s.pool.free.length < ps.length → cellVictim k s = none →
      ∃ t, exec (.enroll i w p) s = .next (settle t) ∧ blockCompletes (blockKey o s) .cellShort key i o s t ∧
        t.slots = s.slots ∧ t.pool = s.pool ∧ t.recency = k :: s.recency.filter (· != k) ∧ t.counts = s.counts ∧
        t.attn = raised .cellShort s ∧ t.lines = s.lines ∧ t.taps = s.taps ∧ t.marks = s.marks ∧ keepsHost s t)

/-- R152, R153, R155, R169: AMEND applies the flags of its mask in order, ADJUST adds its signed amount within the
balance range, BLOCK and UNBLOCK set the record's state and UNBLOCK removes the card's mark; each answers with its
status and result, and an argument out of range changes nothing. -/
def Obligations.RecordFieldCommands : Prop :=
  (∀ (s : State) (i : Nat) (w : Word) (p : BitVec 4) (o : Op) (k : SlotNo),
     let b := parseBlock o.words
     let mask := byteAt b.payload 0
     let r := (s.slot k).record
     let key := (blockKey o s).zeroExtend 32
     let cls : ClassNo := if mask[0] then Fin.ofNat 8 (byteAt b.payload 1).toNat else r.fareClass
     let new : Int := r.balance + (wordAt b.payload 0).toInt
     let kept (t : State) : Prop :=
       t.recency = k :: s.recency.filter (· != k) ∧ t.pool = s.pool ∧ t.marks = s.marks ∧ commandFrame k s t
     (recordReady .amend i w p k s o →
       (1 ≤ mask.toNat → mask.toNat ≤ 15 → (mask[0] = true → (byteAt b.payload 1).toNat ≤ 7) →
         ∃ t, exec (.amend i w p) s = .next (settle t) ∧ blockCompletes (blockKey o s) .ok key i o s t ∧ kept t ∧
           t.slot k =
             { s.slot k with
               dirty := true,
               record :=
                 { r with
                   fareClass := cls, trip := if mask[1] then .out else r.trip,
                   tokens :=
                     if mask[2] then Fin.ofNat 16 (s.tariff.active.classEntry cls).burst.toNat else r.tokens,
                   refillMark := if mask[2] then s.clock.seconds else r.refillMark,
                   deadlinePasses := if mask[3] then 0 else r.deadlinePasses,
                   blockedTaps := if mask[3] then 0 else r.blockedTaps,
                   watchHits := if mask[3] then 0 else r.watchHits } }) ∧
       (mask = 0 ∨ 15 < mask.toNat ∨ (mask[0] = true ∧ 7 < (byteAt b.payload 1).toNat) →
         ∃ t, exec (.amend i w p) s = .next (settle t) ∧ blockCompletes (blockKey o s) .badArgument key i o s t ∧
           kept t ∧ t.slot k = s.slot k)) ∧
     (recordReady .adjust i w p k s o →
       (-65535 ≤ new → new ≤ 16777215 →
         ∃ t, exec (.adjust i w p) s = .next (settle t) ∧
           blockCompletes (blockKey o s) .ok (BitVec.ofInt 32 new) i o s t ∧ kept t ∧
           t.slot k = { s.slot k with dirty := true, record := { r with balance := new } }) ∧
       (new < -65535 ∨ 16777215 < new →
         ∃ t, exec (.adjust i w p) s = .next (settle t) ∧
           blockCompletes (blockKey o s) .balanceLimit (BitVec.ofInt 32 r.balance) i o s t ∧ kept t ∧
           t.slot k = s.slot k))) ∧
  (∀ (s : State) (i : Nat) (w : Word) (p : BitVec 4) (o : Op) (k : SlotNo),
     let key := (blockKey o s).zeroExtend 32
     (recordReady .block i w p k s o →
       ∃ t, exec (.block i w p) s = .next (settle t) ∧ blockCompletes (blockKey o s) .ok key i o s t ∧
         t.slot k = { s.slot k with dirty := true, record := { (s.slot k).record with state := .blocked } } ∧
         t.recency = k :: s.recency.filter (· != k) ∧ t.pool = s.pool ∧ t.marks = s.marks ∧ commandFrame k s t) ∧
     (recordReady .unblock i w p k s o →
       ∃ t, exec (.unblock i w p) s = .next (settle t) ∧ blockCompletes (blockKey o s) .ok key i o s t ∧
         t.slot k = { s.slot k with dirty := true, record := { (s.slot k).record with state := .active } } ∧
         t.recency = k :: s.recency.filter (· != k) ∧ t.pool = s.pool ∧
         (∀ m,
           t.marks.get m =
             if s.marks.get m = some (parseBlock o.words).ident then none else s.marks.get m) ∧
         commandFrame k s t))

/-- R154, R50, R51, R56: ADD PRODUCT appends its entry, uses at 0, in the cell at the head of the free list; REMOVE
PRODUCT takes the first entry of the tag out and returns its cell to the head; both answer OK with the product count, or
PRODUCT_FULL, BAD_ARGUMENT for an entry whose kind byte is no code, CELL_SHORT and NO_PRODUCT with slots and cells as
they were. With no cell free, ADD PRODUCT first frees the clean eligible slot with cells nearest the recency tail and
hands it over (R33, R43); CELL_SHORT comes where there is none. -/
def Obligations.AddAndRemoveProduct : Prop :=
  ∀ (s : State) (i : Nat) (w : Word) (p : BitVec 4) (o : Op) (k : SlotNo),
    let b := parseBlock o.words
    let cells := (s.slot k).cells
    let kept (t : State) : Prop :=
      t.recency = k :: s.recency.filter (· != k) ∧ t.marks = s.marks ∧ commandFrame k s t
    (recordReady .addProduct i w p k s o →
      (∀ (e : ProductEntry) (c : CellNo) (rest : List CellNo), cells.length < 12 →
        decodeProduct b.payload 0 = some e → s.pool.free = c :: rest → c ∉ cells →
        ∃ t, exec (.addProduct i w p) s = .next (settle t) ∧
          blockCompletes (blockKey o s) .ok (BitVec.ofNat 32 (cells.length + 1)) i o s t ∧ kept t ∧
          t.slot k = { s.slot k with dirty := true, cells := cells ++ [c] } ∧ t.pool.free = rest ∧
          t.products k = s.products k ++ [{ e with uses := 0 }]) ∧
      (12 ≤ cells.length →
        ∃ t, exec (.addProduct i w p) s = .next (settle t) ∧
          blockCompletes (blockKey o s) .productFull (BitVec.ofNat 32 cells.length) i o s t ∧ kept t ∧
          t.slots = s.slots ∧ t.pool = s.pool) ∧
      (cells.length < 12 → byteAt b.payload 0 ≠ 1 → byteAt b.payload 0 ≠ 2 →
        ∃ t, exec (.addProduct i w p) s = .next (settle t) ∧
          blockCompletes (blockKey o s) .badArgument (BitVec.ofNat 32 cells.length) i o s t ∧ kept t ∧
          t.slots = s.slots ∧ t.pool = s.pool) ∧
      (∀ e v, cells.length < 12 → decodeProduct b.payload 0 = some e → s.pool.free = [] → cellVictim k s = some v →
        (∀ u, u ∈ s.slotWait → u ≠ .change ∧ waiterKey s u ≠ blockKey o s) →
        exec (.addProduct i w p) s = exec (.addProduct i w p) (handOver v (cleanlyEvicted v s))) ∧
      (∀ e, cells.length < 12 → decodeProduct b.payload 0 = some e → s.pool.free = [] → cellVictim k s = none →
        ∃ t, exec (.addProduct i w p) s = .next (settle t) ∧
          blockCompletes (blockKey o s) .cellShort (BitVec.ofNat 32 cells.length) i o s t ∧
          t.slots = s.slots ∧ t.pool = s.pool ∧ t.recency = k :: s.recency.filter (· != k) ∧
          t.counts = s.counts ∧ t.attn = raised .cellShort s ∧ t.lines = s.lines ∧ t.taps = s.taps ∧
          t.marks = s.marks ∧ keepsHost s t)) ∧
    (recordReady .removeProduct i w p k s o →
      (∀ c, cells.find? (fun c => (s.pool.entry c).tag == halfAt b.payload 0) = some c →
        ∃ t, exec (.removeProduct i w p) s = .next (settle t) ∧
          blockCompletes (blockKey o s) .ok (BitVec.ofNat 32 (cells.length - 1)) i o s t ∧ kept t ∧
          t.slot k = { s.slot k with dirty := true, cells := cells.erase c } ∧ t.pool.free = c :: s.pool.free) ∧
      ((∀ c, c ∈ cells → (s.pool.entry c).tag ≠ halfAt b.payload 0) →
        ∃ t, exec (.removeProduct i w p) s = .next (settle t) ∧
          blockCompletes (blockKey o s) .noProduct (BitVec.ofNat 32 cells.length) i o s t ∧ kept t ∧
          t.slots = s.slots ∧ t.pool = s.pool))

/-- R156, R37, R157, R38: RETIRE empties the record, returns its cells, removes its mark and evicts the slot with a write
that it waits for, or owes the eviction behind the write in flight and waits for the next (R35); FLUSH of a slot with
nothing to write answers OK with the generation, else it waits for a write. -/
def Obligations.RetireAndFlush : Prop :=
  ∀ (s : State) (i : Nat) (w : Word) (p : BitVec 4) (o : Op) (k : SlotNo),
    let taken (t : State) : Prop :=
      t.change =
        { s.change with
          state := .storing, block := parseBlock o.words, heldLink := (parseBlock o.words).link,
          key := blockKey o s }
    let others (t : State) : Prop :=
      (∀ j, j ≠ k → t.slot j = s.slot j) ∧ t.lines = s.lines ∧ t.taps = s.taps ∧ t.slotWait = s.slotWait ∧
        t.urgent = s.urgent ∧ t.attn = s.attn ∧ keepsHost s t
    (recordReady .retire i w p k s o → (s.slot k).writeInFlight = false →
      ∃ t, exec (.retire i w p) s = .next (settle t) ∧ taken t ∧ others t ∧
        t.slot k =
          { s.slot k with
            state := .evicting, record := Record.empty ((s.slot k).record.generation + 1), cells := [],
            dirty := false, wbFault := false, waiting := [], rescued := false, writeReqs := [.retire],
            nextReqs := [] } ∧
        t.pool.free = (s.slot k).cells.reverse ++ s.pool.free ∧ t.recency = s.recency.filter (· != k) ∧
        (∀ m,
          t.marks.get m =
            if s.marks.get m = some (s.slot k).record.ident then none else s.marks.get m) ∧
        t.counts = { s.counts with dirtyEvictions := s.counts.dirtyEvictions + 1 } ∧
        t.port.list =
          s.port.list ++
            [.writeBack k (s.slot k).key (homeAddr s (s.slot k).key)
              (bytesWords (encodeImage (Record.empty ((s.slot k).record.generation + 1)) []))]) ∧
    (recordReady .retire i w p k s o → (s.slot k).writeInFlight = true →
      ∃ t, exec (.retire i w p) s = .next (settle t) ∧ taken t ∧ others t ∧
        t.slot k =
          { s.slot k with
            state := .evicting, record := Record.empty (s.slot k).record.generation, cells := [], dirty := true,
            waiting := [], rescued := false, nextReqs := (s.slot k).nextReqs ++ [.retire] } ∧
        t.pool.free = (s.slot k).cells.reverse ++ s.pool.free ∧ t.recency = s.recency.filter (· != k) ∧
        (∀ m,
          t.marks.get m =
            if s.marks.get m = some (s.slot k).record.ident then none else s.marks.get m) ∧
        t.counts = s.counts ∧ t.port.list = s.port.list) ∧
    (recordReady .flush i w p k s o →
      ((s.slot k).nothingToWrite = true →
        ∃ t, exec (.flush i w p) s = .next (settle t) ∧
          blockCompletes (blockKey o s) .ok ((s.slot k).record.generation.zeroExtend 32) i o s t ∧
          t.slots = s.slots ∧ others t) ∧
      ((s.slot k).writeInFlight = true →
        ∃ t, exec (.flush i w p) s = .next (settle t) ∧ taken t ∧ others t ∧
          t.slot k = { s.slot k with nextReqs := (s.slot k).nextReqs ++ [.changeFlush] } ∧
          t.port.list = s.port.list) ∧
      ((s.slot k).writeInFlight = false → (s.slot k).dirty = true →
        ∃ t, exec (.flush i w p) s = .next (settle t) ∧ taken t ∧ others t ∧
          t.slot k =
            { s.slot k with
              record := { (s.slot k).record with generation := (s.slot k).record.generation + 1 },
              dirty := false, wbFault := false, writeInFlight := true, writeReqs := [.changeFlush],
              nextReqs := [] } ∧
          t.port.list = s.port.list ++ [writeBackAsked k s]))

/-- R158, R38: FLUSH ALL with nothing to flush completes at once with OK and 0; else each RESIDENT slot that is dirty or
carries wb_fault receives one request, the unit stays STORING with their count, and every other slot stands; the
write-backs that it issues join the request list in increasing slot number. -/
def Obligations.FlushAllCoversTheDirtySlots : Prop :=
  ∀ (s : State) (i : Nat) (w : Word) (p : BitVec 4) (o : Op), blockReady .flushAll i w p s o →
    ((∀ k, (s.slot k).state ≠ .resident ∨ ((s.slot k).dirty = false ∧ (s.slot k).wbFault = false)) →
      ∃ t, exec (.flushAll i w p) s = .next (settle t) ∧ blockCompletes s.change.key .ok 0 i o s t ∧
        t.slots = s.slots) ∧
    ((∃ k, (s.slot k).flushAllCovers = true) →
      ∃ t, exec (.flushAll i w p) s = .next (settle t) ∧ t.change.state = .storing ∧ t.change.failures = 0 ∧
        t.change.outstanding = allSlots.countP (fun k => (s.slot k).flushAllCovers) ∧
        t.change.block = parseBlock o.words ∧ t.recency = s.recency ∧ t.pool = s.pool ∧ t.lines = s.lines ∧
        keepsHost s t ∧
        t.port.list =
          s.port.list ++
            ((allSlots.filter fun k => (s.slot k).flushAllCovers && !(s.slot k).writeInFlight).map fun k =>
              writeBackAsked k s) ∧
        ∀ k,
          ((s.slot k).flushAllCovers = false → t.slot k = s.slot k) ∧
          ((s.slot k).flushAllCovers = true → (s.slot k).writeInFlight = true →
            t.slot k = { s.slot k with nextReqs := (s.slot k).nextReqs ++ [.flushAll] }) ∧
          ((s.slot k).flushAllCovers = true → (s.slot k).writeInFlight = false →
            t.slot k =
              { s.slot k with
                record := { (s.slot k).record with generation := (s.slot k).record.generation + 1 },
                dirty := false, wbFault := false, writeInFlight := true, writeReqs := [.flushAll],
                nextReqs := [] }))

/-- R143, R144, R161, R145: the read again of a RESUME takes the link alone and reads the block there, or, with the
pending stop SUSPEND, holds it and stops SUSPENDED (that CHG_STOPPED is raised there is the model's: log entry 12); a
failed BLOCK READ halts the unit; the end of an abandoned read clears its flag and changes nothing else of the unit. -/
def Obligations.BlockReadsThatApplyNothing : Prop :=
  ∀ (s : State) (i : Nat) (o : Op),
    (∀ w p, blockArrives true i w p s = some o → s.change.stop = .none →
      let a := (parseBlock o.words).link
      exec (.resumeRereadDone i w p) s =
        .next
          (settle
            { s with
              change := { s.change with state := .reading, blockAddr := a, heldLink := a, rereading := false },
              port :=
                { s.port with
                  inFlight := s.port.inFlight.eraseIdx i, list := s.port.list ++ [.blockRead a false] } })) ∧
    (∀ w p, blockArrives true i w p s = some o → s.change.stop = .suspend →
      exec (.resumeRereadDone i w p) s =
        .next
          (settle
            { s with
              change :=
                { s.change with
                  state := .suspended, stop := .none, heldLink := (parseBlock o.words).link, rereading := false },
              attn := raised .chgStopped s,
              port := { s.port with inFlight := s.port.inFlight.eraseIdx i } })) ∧
    (∀ a e out, s.op i = some o → o.request = .blockRead a false → o.endBy s e = some (o, out) → out ≠ .ok →
      exec (.blockReadFail i e) s =
        .next
          (settle
            { s with
              change := { s.change with state := .halted, stop := .none, rereading := false },
              attn := raised .memFault s,
              port := portFaulted i o.request out (if out = .timeout then [o.beat] else []) s })) ∧
    (∀ a e out, s.op i = some o → o.request = .blockRead a true → o.endBy s e = some (o, out) → out ≠ .ok →
      exec (.abandonedReadEnd i e) s =
        .next
          (settle
            { s with
              change := { s.change with abandoned := false }, attn := raised .memFault s,
              port := portFaulted i o.request out (if out = .timeout then [o.beat] else []) s })) ∧
    (∀ a w o', s.op i = some o → o.request = .blockRead a true →
      o.respond (.data w (oddParity w)) = some (o', some .ok) →
      exec (.abandonedReadEnd i (.response (.data w (oddParity w)))) s =
        .next
          (settle
            { s with
              change := { s.change with abandoned := false },
              port := { s.port with inFlight := s.port.inFlight.eraseIdx i } }))

/-- R160, R162, R62: a STATUS WRITE that ends OK completes the block: it is the last completed block, a completion with
its I flag set is signalled (R183), and the unit goes on to the held link, or stops IDLE or SUSPENDED with CHG_STOPPED
by the pending stop and the flags E and S; one that fails halts the unit and leaves the last completed block as it was.
-/
def Obligations.StatusWriteEnds : Prop :=
  ∀ (s : State) (i : Nat) (o : Op) (a result : Word) (h : Half), s.op i = some o →
    o.request = .statusWrite a result h →
    (o.acked = 1 →
      let signalled : Attention := if s.change.block.flagI = true then (signalChgDone s).attn else s.attn
      let stops (x : ChangeState) : Prop :=
        exec (.statusWriteComplete i) s =
          .next
            (settle
              { s with
                change :=
                  { s.change with state := x, stop := .none, last := s.change.blockAddr, lastValid := true },
                attn := raised .chgStopped { s with attn := signalled },
                port := { s.port with inFlight := s.port.inFlight.eraseIdx i },
                hostMem := s.hostMem.takeBeat o.beat })
      (s.change.stop = .abort ∨ s.change.block.flagE = true → stops .idle) ∧
      (s.change.stop = .suspend → s.change.block.flagE = false → stops .suspended) ∧
      (s.change.stop = .none → s.change.block.flagE = false → s.change.block.flagS = true → stops .suspended) ∧
      (s.change.stop = .none → s.change.block.flagE = false → s.change.block.flagS = false →
        exec (.statusWriteComplete i) s =
          .next
            (settle
              { s with
                change :=
                  { s.change with
                    state := .reading, blockAddr := s.change.heldLink, last := s.change.blockAddr,
                    lastValid := true },
                attn := signalled,
                port :=
                  { s.port with
                    inFlight := s.port.inFlight.eraseIdx i,
                    list := s.port.list ++ [.blockRead s.change.heldLink false] },
                hostMem := s.hostMem.takeBeat o.beat }))) ∧
    (∀ e out, o.endBy s e = some (o, out) → out ≠ .ok →
      ∃ t, exec (.statusWriteFail i e) s = .next (settle t) ∧
        t.change = { s.change with state := .halted, stop := .none, rereading := false } ∧
        t.attn = raised .memFault s ∧
        t.port = portFaulted i o.request out (if out = .timeout then [o.beat] else []) s ∧ tookOrNot o.beat s t ∧
        t.slots = s.slots ∧ t.lines = s.lines ∧ t.taps = s.taps)

/-! ## The Urgent Command Unit -/

/-- R166, R167, R169: BLOCK of a card whose own record is RESIDENT makes it BLOCKED; else a mark is entered in the free
entry of the lowest number, or the answer is ALREADY or FULL; the value is the number of marks. -/
def Obligations.UrgentBlock : Prop :=
  ∀ s : State, s.isOpen = true → s.urgent.state ≠ .busy →
    let x := s.urgent.arg
    let answers (t : State) (r : UrgentResult) (v : Nat) : Prop :=
      t.urgent =
          { s.urgent with
            state := .done, command := some 1, result := r, value := BitVec.ofNat 16 v, lost := false, taken := x } ∧
        t.attn = raised .urgentDone s ∧ t.lines = s.lines ∧ t.change = s.change ∧ t.port = s.port ∧
        t.pool = s.pool ∧ keepsHost s t
    (∀ k, findResident (keyOf s.engine.keyShape x) s = some k → (s.slot k).record.state ≠ .empty →
      (s.slot k).record.ident = x →
      ∃ t, exec .urgentBlock s = .next (settle t) ∧ answers t .applied (markCount s) ∧ t.marks = s.marks ∧
        t.slots =
          s.slots.set k.val
            { s.slot k with dirty := true, record := { (s.slot k).record with state := .blocked } } k.isLt ∧
        t.recency = k :: s.recency.filter (· != k)) ∧
    (ownResident x s = none → (∃ m, s.marks.get m = some x) →
      ∃ t, exec .urgentBlock s = .next (settle t) ∧ answers t .already (markCount s) ∧ t.marks = s.marks ∧
        t.slots = s.slots ∧ t.recency = s.recency) ∧
    (ownResident x s = none → (∀ m, s.marks.get m ≠ some x) → (∀ m, s.marks.get m ≠ none) →
      ∃ t, exec .urgentBlock s = .next (settle t) ∧ answers t .full 16 ∧ t.marks = s.marks ∧ t.slots = s.slots) ∧
    (∀ m : Fin 16, ownResident x s = none → (∀ m, s.marks.get m ≠ some x) → s.marks.get m = none →
      (∀ j, j < m → s.marks.get j ≠ none) →
      ∃ t, exec .urgentBlock s = .next (settle t) ∧ answers t .marked (markCount s + 1) ∧
        t.marks = s.marks.set m.val (some x) m.isLt ∧ t.slots = s.slots ∧ t.recency = s.recency)

/-- R168: UNMARK removes the mark for the argument's identifier and answers REMOVED, or ABSENT with the table unchanged;
no record and no request is reached, and it ends in its own event. -/
def Obligations.UnmarkRemovesTheMark : Prop :=
  ∀ s : State, s.isOpen = true → s.urgent.state ≠ .busy →
    ∃ t, exec .unmark s = .next t ∧
      (∀ m, t.marks.get m = if s.marks.get m = some s.urgent.arg then none else s.marks.get m) ∧
      t.urgent =
        { s.urgent with
          state := .done, command := some 2, lost := false, taken := s.urgent.arg,
          result := if ∃ m, s.marks.get m = some s.urgent.arg then .removed else .absent,
          value := BitVec.ofNat 16 (markCount t) } ∧
      t.attn = raised .urgentDone s ∧ t.lines = s.lines ∧ t.change = s.change ∧ t.engine = s.engine ∧
      keepsCache s t ∧ keepsHost s t

/-- R171, R172, R173, R38: PEEK copies a RESIDENT slot into the Peek Window, or clears its valid flag; FLUSH and
RETRY-WRITE place a flush request on a RESIDENT slot with something to write, which waits for the next write where one is
in flight, and answer at once where there is none. -/
def Obligations.PeekFlushAndRetry : Prop :=
  ∀ s : State, s.isOpen = true → s.urgent.state ≠ .busy →
    let key : Key := s.urgent.arg.extractLsb' 0 16
    let ends (code : Word) (r : UrgentResult) (v : Half) (p : PeekWindow) : State :=
      { s with
        urgent :=
          { s.urgent with
            state := .done, command := some code, result := r, value := v, lost := false, taken := s.urgent.arg },
        attn := raised .urgentDone s, peek := p }
    let taken (code : Word) : Urgent :=
      { s.urgent with
        state := .busy, command := some code, result := .none, value := 0, lost := false, taken := s.urgent.arg }
    let joins (code : Word) (k : SlotNo) : State :=
      { s with
        urgent := taken code,
        slots :=
          s.slots.set k.val { s.slot k with nextReqs := (s.slot k).nextReqs ++ [.urgent] } k.isLt }
    let waits (t : State) (code : Word) (k : SlotNo) : Prop :=
      t.urgent = taken code ∧ t.attn = s.attn ∧
        t.slot k =
          { s.slot k with
            record := { (s.slot k).record with generation := (s.slot k).record.generation + 1 },
            dirty := false, wbFault := false, writeInFlight := true, writeReqs := [.urgent], nextReqs := [] } ∧
        t.port.list = s.port.list ++ [writeBackAsked k s] ∧ (∀ j, j ≠ k → t.slot j = s.slot j) ∧ t.lines = s.lines ∧
        t.change = s.change ∧ t.recency = s.recency ∧ t.pool = s.pool ∧ keepsHost s t
    (∀ k, findResident key s = some k →
      exec .peek s =
          .next
            (ends 3 .ok key
              { valid := true, key := (s.slot k).key, slot := k, dirty := (s.slot k).dirty,
                writeInFlight := (s.slot k).writeInFlight, wbFault := (s.slot k).wbFault,
                record := (s.slot k).record, products := s.products k }) ∧
        ((s.slot k).nothingToWrite = true →
          exec .urgentFlush s = .next (settle (ends 4 .clean (s.slot k).record.generation s.peek))) ∧
        ((s.slot k).writeInFlight = false → (s.slot k).dirty = true →
          ∃ t, exec .urgentFlush s = .next (settle t) ∧ waits t 4 k) ∧
        ((s.slot k).writeInFlight = true → exec .urgentFlush s = .next (settle (joins 4 k))) ∧
        ((s.slot k).wbFault = false →
          exec .retryWrite s = .next (settle (ends 5 .notFaulted 0 s.peek))) ∧
        ((s.slot k).wbFault = true → (s.slot k).writeInFlight = false →
          ∃ t, exec .retryWrite s = .next (settle t) ∧ waits t 5 k) ∧
        ((s.slot k).wbFault = true → (s.slot k).writeInFlight = true →
          exec .retryWrite s = .next (settle (joins 5 k)))) ∧
    (findResident key s = none →
      exec .peek s = .next (ends 3 .notResident key (PeekWindow.cleared key)) ∧
        exec .urgentFlush s = .next (settle (ends 4 .notResident 0 s.peek)) ∧
        exec .retryWrite s = .next (settle (ends 5 .notResident 0 s.peek)))

/-- R166: a code that names no command (that the whole word is the code is the model's: log entry 24) is taken and
answered BAD_COMMAND at once, and so is its write to URGENT_CMD; any command written while the unit is BUSY is lost and
sets the lost flag alone; in HELD and INITIALIZING every write is ignored. -/
def Obligations.UnknownAndLostUrgentCommands : Prop :=
  ∀ (s : State) (code : Word),
    (s.isOpen = true → s.urgent.state ≠ .busy → code = 0 ∨ 5 < code.toNat →
      exec (.urgentUnknownCode code) s =
        .next
          { s with
            urgent :=
              { s.urgent with
                state := .done, command := some code, result := .badCommand, value := 0, lost := false,
                taken := s.urgent.arg },
            attn := raised .urgentDone s }) ∧
    (s.urgent.state ≠ .busy → code = 0 ∨ 5 < code.toNat →
      exec (.registerWrite 0x050 code) s = exec (.urgentUnknownCode code) s) ∧
    (s.isOpen = true → s.urgent.state = .busy →
      let lost : Host.Outcome State Fault Refusal := .next { s with urgent := { s.urgent with lost := true } }
      exec (.urgentCommandLost code) s = lost ∧ exec (.registerWrite 0x050 code) s = lost ∧
        exec .urgentBlock s = lost ∧ exec .unmark s = lost ∧ exec .peek s = lost ∧ exec .urgentFlush s = lost ∧
        exec .retryWrite s = lost) ∧
    (s.isOpen = false →
      exec .urgentBlock s = .next s ∧ exec .unmark s = .next s ∧ exec .peek s = .next s ∧
        exec .urgentFlush s = .next s ∧ exec .retryWrite s = .next s ∧
        exec (.urgentUnknownCode code) s = .next s)

/-! ## Formats and invariants -/

/-- R13, R15, R17, R193: the image that a write-back carries is fetched back as the record and products it was made of,
and that of an EMPTY record as the EMPTY record with generation 0 and no products. R193, Tables 12.1 and 12.2: the bytes
of an image. -/
def Obligations.HomeImageRoundTrip : Prop :=
  (∀ (r : Record) (ps : List ProductEntry) (check : Half), ps.length ≤ 12 →
     let balance : Word := BitVec.ofInt 32 r.balance
     imageBytes r ps check =
       [r.ident.extractLsb' 0 8, r.ident.extractLsb' 8 8, r.ident.extractLsb' 16 8, r.ident.extractLsb' 24 8,
           r.ident.extractLsb' 32 8, r.ident.extractLsb' 40 8, r.ident.extractLsb' 48 8,
           (match r.state with | .empty => 0 | .active => 1 | .blocked => 2),
           balance.extractLsb' 0 8, balance.extractLsb' 8 8, balance.extractLsb' 16 8, balance.extractLsb' 24 8,
           r.entryStamp.extractLsb' 0 8, r.entryStamp.extractLsb' 8 8, r.entryStamp.extractLsb' 16 8,
           r.entryStamp.extractLsb' 24 8, r.refillMark.extractLsb' 0 8, r.refillMark.extractLsb' 8 8,
           r.refillMark.extractLsb' 16 8, r.refillMark.extractLsb' 24 8, r.lastTapStamp.extractLsb' 0 8,
           r.lastTapStamp.extractLsb' 8 8, r.lastTapStamp.extractLsb' 16 8, r.lastTapStamp.extractLsb' 24 8,
           r.tapCount.extractLsb' 0 8, r.tapCount.extractLsb' 8 8, r.generation.extractLsb' 0 8,
           r.generation.extractLsb' 8 8, check.extractLsb' 0 8, check.extractLsb' 8 8,
           BitVec.ofNat 8 r.fareClass.val, BitVec.ofNat 8 ps.length,
           (match r.trip with | .out => 0 | .within => 1), BitVec.ofNat 8 r.entryGroup.val, r.entryEpoch,
           BitVec.ofNat 8 r.tokens.val, BitVec.ofNat 8 r.lastTapLine.val, r.deadlinePasses, r.blockedTaps,
           r.watchHits] ++
         (ps.flatMap fun p =>
             [(match p.kind with | .periodPass => 1 | .rideBundle => 2), p.zoneMask, p.tag.extractLsb' 0 8,
               p.tag.extractLsb' 8 8, p.firstDay.extractLsb' 0 8, p.firstDay.extractLsb' 8 8,
               p.lastDay.extractLsb' 0 8, p.lastDay.extractLsb' 8 8, p.rides.extractLsb' 0 8,
               p.rides.extractLsb' 8 8, p.uses.extractLsb' 0 8, p.uses.extractLsb' 8 8]) ++
           List.replicate (144 - 12 * ps.length) 0) ∧
  (∀ (r : Record) (ps : List ProductEntry), r.state = .empty →
     decodeImage (encodeImage r ps) = .valid (Record.empty 0) []) ∧
  ∀ (r : Record) (ps : List ProductEntry), r.state ≠ .empty → -65535 ≤ r.balance → r.balance ≤ 16777215 →
    ps.length ≤ 12 → decodeImage (encodeImage r ps) = .valid r ps

/-- R125, R12, R60, R175, R184, R183: every step keeps the class entries in range, Home Base a multiple of 16 MiB, at
most four operations in flight, the memory canonical, the phase below 1000 and the coalescing count below its threshold.
-/
def Obligations.EveryStepKeepsSettingsSound : Prop :=
  ∀ s t : State, settingsSound s → step s = .next t → settingsSound t

/-- R1, R2, R8: every step keeps each slot's balance in range, its product list at most twelve long, and an EMPTY record
without products. -/
def Obligations.EveryStepKeepsRecordsSound : Prop :=
  ∀ s t : State, recordsSound s → step s = .next t → recordsSound t

/-- The state at power-on has settings and records sound (R125, R12, R184, R18). -/
def Obligations.ResetIsSound : Prop :=
  settingsSound State.reset ∧ recordsSound State.reset
end

