-- ==== Sys2Proof/Laws/State.lean ====
section
/-! SUPPORT. The small lemmas of the state record: one for each field and each update, and those of the accessors of one
slot, line and context. -/

namespace Sys2Proof.Machine

@[simp] theorem State.setEngine_engine (s : State) (x : Engine) : (s.setEngine x).engine = x := rfl
@[simp] theorem State.setEngine_clock (s : State) (x : Engine) : (s.setEngine x).clock = s.clock := rfl
@[simp] theorem State.setEngine_attn (s : State) (x : Engine) : (s.setEngine x).attn = s.attn := rfl
@[simp] theorem State.setEngine_lines (s : State) (x : Engine) : (s.setEngine x).lines = s.lines := rfl
@[simp] theorem State.setEngine_lineEvents (s : State) (x : Engine) : (s.setEngine x).lineEvents = s.lineEvents := rfl
@[simp] theorem State.setEngine_taps (s : State) (x : Engine) : (s.setEngine x).taps = s.taps := rfl
@[simp] theorem State.setEngine_slots (s : State) (x : Engine) : (s.setEngine x).slots = s.slots := rfl
@[simp] theorem State.setEngine_recency (s : State) (x : Engine) : (s.setEngine x).recency = s.recency := rfl
@[simp] theorem State.setEngine_slotWait (s : State) (x : Engine) : (s.setEngine x).slotWait = s.slotWait := rfl
@[simp] theorem State.setEngine_counts (s : State) (x : Engine) : (s.setEngine x).counts = s.counts := rfl
@[simp] theorem State.setEngine_pool (s : State) (x : Engine) : (s.setEngine x).pool = s.pool := rfl
@[simp] theorem State.setEngine_port (s : State) (x : Engine) : (s.setEngine x).port = s.port := rfl
@[simp] theorem State.setEngine_tariff (s : State) (x : Engine) : (s.setEngine x).tariff = s.tariff := rfl
@[simp] theorem State.setEngine_ranges (s : State) (x : Engine) : (s.setEngine x).ranges = s.ranges := rfl
@[simp] theorem State.setEngine_lastWatch (s : State) (x : Engine) : (s.setEngine x).lastWatch = s.lastWatch := rfl
@[simp] theorem State.setEngine_change (s : State) (x : Engine) : (s.setEngine x).change = s.change := rfl
@[simp] theorem State.setEngine_urgent (s : State) (x : Engine) : (s.setEngine x).urgent = s.urgent := rfl
@[simp] theorem State.setEngine_marks (s : State) (x : Engine) : (s.setEngine x).marks = s.marks := rfl
@[simp] theorem State.setEngine_peek (s : State) (x : Engine) : (s.setEngine x).peek = s.peek := rfl
@[simp] theorem State.setEngine_copies (s : State) (x : Engine) : (s.setEngine x).copies = s.copies := rfl
@[simp] theorem State.setEngine_slave (s : State) (x : Engine) : (s.setEngine x).slave = s.slave := rfl
@[simp] theorem State.setEngine_hostMem (s : State) (x : Engine) : (s.setEngine x).hostMem = s.hostMem := rfl
@[simp] theorem State.setEngine_freeIndex (s : State) (x : Engine) : (s.setEngine x).freeIndex = s.freeIndex := rfl
@[simp] theorem State.setEngine_pending (s : State) (x : Engine) : (s.setEngine x).pending = s.pending := rfl

@[simp] theorem State.setClock_engine (s : State) (x : Clock) : (s.setClock x).engine = s.engine := rfl
@[simp] theorem State.setClock_clock (s : State) (x : Clock) : (s.setClock x).clock = x := rfl
@[simp] theorem State.setClock_attn (s : State) (x : Clock) : (s.setClock x).attn = s.attn := rfl
@[simp] theorem State.setClock_lines (s : State) (x : Clock) : (s.setClock x).lines = s.lines := rfl
@[simp] theorem State.setClock_lineEvents (s : State) (x : Clock) : (s.setClock x).lineEvents = s.lineEvents := rfl
@[simp] theorem State.setClock_taps (s : State) (x : Clock) : (s.setClock x).taps = s.taps := rfl
@[simp] theorem State.setClock_slots (s : State) (x : Clock) : (s.setClock x).slots = s.slots := rfl
@[simp] theorem State.setClock_recency (s : State) (x : Clock) : (s.setClock x).recency = s.recency := rfl
@[simp] theorem State.setClock_slotWait (s : State) (x : Clock) : (s.setClock x).slotWait = s.slotWait := rfl
@[simp] theorem State.setClock_counts (s : State) (x : Clock) : (s.setClock x).counts = s.counts := rfl
@[simp] theorem State.setClock_pool (s : State) (x : Clock) : (s.setClock x).pool = s.pool := rfl
@[simp] theorem State.setClock_port (s : State) (x : Clock) : (s.setClock x).port = s.port := rfl
@[simp] theorem State.setClock_tariff (s : State) (x : Clock) : (s.setClock x).tariff = s.tariff := rfl
@[simp] theorem State.setClock_ranges (s : State) (x : Clock) : (s.setClock x).ranges = s.ranges := rfl
@[simp] theorem State.setClock_lastWatch (s : State) (x : Clock) : (s.setClock x).lastWatch = s.lastWatch := rfl
@[simp] theorem State.setClock_change (s : State) (x : Clock) : (s.setClock x).change = s.change := rfl
@[simp] theorem State.setClock_urgent (s : State) (x : Clock) : (s.setClock x).urgent = s.urgent := rfl
@[simp] theorem State.setClock_marks (s : State) (x : Clock) : (s.setClock x).marks = s.marks := rfl
@[simp] theorem State.setClock_peek (s : State) (x : Clock) : (s.setClock x).peek = s.peek := rfl
@[simp] theorem State.setClock_copies (s : State) (x : Clock) : (s.setClock x).copies = s.copies := rfl
@[simp] theorem State.setClock_slave (s : State) (x : Clock) : (s.setClock x).slave = s.slave := rfl
@[simp] theorem State.setClock_hostMem (s : State) (x : Clock) : (s.setClock x).hostMem = s.hostMem := rfl
@[simp] theorem State.setClock_freeIndex (s : State) (x : Clock) : (s.setClock x).freeIndex = s.freeIndex := rfl
@[simp] theorem State.setClock_pending (s : State) (x : Clock) : (s.setClock x).pending = s.pending := rfl

@[simp] theorem State.setAttn_engine (s : State) (x : Attention) : (s.setAttn x).engine = s.engine := rfl
@[simp] theorem State.setAttn_clock (s : State) (x : Attention) : (s.setAttn x).clock = s.clock := rfl
@[simp] theorem State.setAttn_attn (s : State) (x : Attention) : (s.setAttn x).attn = x := rfl
@[simp] theorem State.setAttn_lines (s : State) (x : Attention) : (s.setAttn x).lines = s.lines := rfl
@[simp] theorem State.setAttn_lineEvents (s : State) (x : Attention) : (s.setAttn x).lineEvents = s.lineEvents := rfl
@[simp] theorem State.setAttn_taps (s : State) (x : Attention) : (s.setAttn x).taps = s.taps := rfl
@[simp] theorem State.setAttn_slots (s : State) (x : Attention) : (s.setAttn x).slots = s.slots := rfl
@[simp] theorem State.setAttn_recency (s : State) (x : Attention) : (s.setAttn x).recency = s.recency := rfl
@[simp] theorem State.setAttn_slotWait (s : State) (x : Attention) : (s.setAttn x).slotWait = s.slotWait := rfl
@[simp] theorem State.setAttn_counts (s : State) (x : Attention) : (s.setAttn x).counts = s.counts := rfl
@[simp] theorem State.setAttn_pool (s : State) (x : Attention) : (s.setAttn x).pool = s.pool := rfl
@[simp] theorem State.setAttn_port (s : State) (x : Attention) : (s.setAttn x).port = s.port := rfl
@[simp] theorem State.setAttn_tariff (s : State) (x : Attention) : (s.setAttn x).tariff = s.tariff := rfl
@[simp] theorem State.setAttn_ranges (s : State) (x : Attention) : (s.setAttn x).ranges = s.ranges := rfl
@[simp] theorem State.setAttn_lastWatch (s : State) (x : Attention) : (s.setAttn x).lastWatch = s.lastWatch := rfl
@[simp] theorem State.setAttn_change (s : State) (x : Attention) : (s.setAttn x).change = s.change := rfl
@[simp] theorem State.setAttn_urgent (s : State) (x : Attention) : (s.setAttn x).urgent = s.urgent := rfl
@[simp] theorem State.setAttn_marks (s : State) (x : Attention) : (s.setAttn x).marks = s.marks := rfl
@[simp] theorem State.setAttn_peek (s : State) (x : Attention) : (s.setAttn x).peek = s.peek := rfl
@[simp] theorem State.setAttn_copies (s : State) (x : Attention) : (s.setAttn x).copies = s.copies := rfl
@[simp] theorem State.setAttn_slave (s : State) (x : Attention) : (s.setAttn x).slave = s.slave := rfl
@[simp] theorem State.setAttn_hostMem (s : State) (x : Attention) : (s.setAttn x).hostMem = s.hostMem := rfl
@[simp] theorem State.setAttn_freeIndex (s : State) (x : Attention) : (s.setAttn x).freeIndex = s.freeIndex := rfl
@[simp] theorem State.setAttn_pending (s : State) (x : Attention) : (s.setAttn x).pending = s.pending := rfl

@[simp] theorem State.setLines_engine (s : State) (x : Vector Line 16) : (s.setLines x).engine = s.engine := rfl
@[simp] theorem State.setLines_clock (s : State) (x : Vector Line 16) : (s.setLines x).clock = s.clock := rfl
@[simp] theorem State.setLines_attn (s : State) (x : Vector Line 16) : (s.setLines x).attn = s.attn := rfl
@[simp] theorem State.setLines_lines (s : State) (x : Vector Line 16) : (s.setLines x).lines = x := rfl
@[simp] theorem State.setLines_lineEvents (s : State) (x : Vector Line 16) : (s.setLines x).lineEvents = s.lineEvents := rfl
@[simp] theorem State.setLines_taps (s : State) (x : Vector Line 16) : (s.setLines x).taps = s.taps := rfl
@[simp] theorem State.setLines_slots (s : State) (x : Vector Line 16) : (s.setLines x).slots = s.slots := rfl
@[simp] theorem State.setLines_recency (s : State) (x : Vector Line 16) : (s.setLines x).recency = s.recency := rfl
@[simp] theorem State.setLines_slotWait (s : State) (x : Vector Line 16) : (s.setLines x).slotWait = s.slotWait := rfl
@[simp] theorem State.setLines_counts (s : State) (x : Vector Line 16) : (s.setLines x).counts = s.counts := rfl
@[simp] theorem State.setLines_pool (s : State) (x : Vector Line 16) : (s.setLines x).pool = s.pool := rfl
@[simp] theorem State.setLines_port (s : State) (x : Vector Line 16) : (s.setLines x).port = s.port := rfl
@[simp] theorem State.setLines_tariff (s : State) (x : Vector Line 16) : (s.setLines x).tariff = s.tariff := rfl
@[simp] theorem State.setLines_ranges (s : State) (x : Vector Line 16) : (s.setLines x).ranges = s.ranges := rfl
@[simp] theorem State.setLines_lastWatch (s : State) (x : Vector Line 16) : (s.setLines x).lastWatch = s.lastWatch := rfl
@[simp] theorem State.setLines_change (s : State) (x : Vector Line 16) : (s.setLines x).change = s.change := rfl
@[simp] theorem State.setLines_urgent (s : State) (x : Vector Line 16) : (s.setLines x).urgent = s.urgent := rfl
@[simp] theorem State.setLines_marks (s : State) (x : Vector Line 16) : (s.setLines x).marks = s.marks := rfl
@[simp] theorem State.setLines_peek (s : State) (x : Vector Line 16) : (s.setLines x).peek = s.peek := rfl
@[simp] theorem State.setLines_copies (s : State) (x : Vector Line 16) : (s.setLines x).copies = s.copies := rfl
@[simp] theorem State.setLines_slave (s : State) (x : Vector Line 16) : (s.setLines x).slave = s.slave := rfl
@[simp] theorem State.setLines_hostMem (s : State) (x : Vector Line 16) : (s.setLines x).hostMem = s.hostMem := rfl
@[simp] theorem State.setLines_freeIndex (s : State) (x : Vector Line 16) : (s.setLines x).freeIndex = s.freeIndex := rfl
@[simp] theorem State.setLines_pending (s : State) (x : Vector Line 16) : (s.setLines x).pending = s.pending := rfl

@[simp] theorem State.setLineEvents_engine (s : State) (x : BitVec 16) : (s.setLineEvents x).engine = s.engine := rfl
@[simp] theorem State.setLineEvents_clock (s : State) (x : BitVec 16) : (s.setLineEvents x).clock = s.clock := rfl
@[simp] theorem State.setLineEvents_attn (s : State) (x : BitVec 16) : (s.setLineEvents x).attn = s.attn := rfl
@[simp] theorem State.setLineEvents_lines (s : State) (x : BitVec 16) : (s.setLineEvents x).lines = s.lines := rfl
@[simp] theorem State.setLineEvents_lineEvents (s : State) (x : BitVec 16) : (s.setLineEvents x).lineEvents = x := rfl
@[simp] theorem State.setLineEvents_taps (s : State) (x : BitVec 16) : (s.setLineEvents x).taps = s.taps := rfl
@[simp] theorem State.setLineEvents_slots (s : State) (x : BitVec 16) : (s.setLineEvents x).slots = s.slots := rfl
@[simp] theorem State.setLineEvents_recency (s : State) (x : BitVec 16) : (s.setLineEvents x).recency = s.recency := rfl
@[simp] theorem State.setLineEvents_slotWait (s : State) (x : BitVec 16) : (s.setLineEvents x).slotWait = s.slotWait := rfl
@[simp] theorem State.setLineEvents_counts (s : State) (x : BitVec 16) : (s.setLineEvents x).counts = s.counts := rfl
@[simp] theorem State.setLineEvents_pool (s : State) (x : BitVec 16) : (s.setLineEvents x).pool = s.pool := rfl
@[simp] theorem State.setLineEvents_port (s : State) (x : BitVec 16) : (s.setLineEvents x).port = s.port := rfl
@[simp] theorem State.setLineEvents_tariff (s : State) (x : BitVec 16) : (s.setLineEvents x).tariff = s.tariff := rfl
@[simp] theorem State.setLineEvents_ranges (s : State) (x : BitVec 16) : (s.setLineEvents x).ranges = s.ranges := rfl
@[simp] theorem State.setLineEvents_lastWatch (s : State) (x : BitVec 16) : (s.setLineEvents x).lastWatch = s.lastWatch := rfl
@[simp] theorem State.setLineEvents_change (s : State) (x : BitVec 16) : (s.setLineEvents x).change = s.change := rfl
@[simp] theorem State.setLineEvents_urgent (s : State) (x : BitVec 16) : (s.setLineEvents x).urgent = s.urgent := rfl
@[simp] theorem State.setLineEvents_marks (s : State) (x : BitVec 16) : (s.setLineEvents x).marks = s.marks := rfl
@[simp] theorem State.setLineEvents_peek (s : State) (x : BitVec 16) : (s.setLineEvents x).peek = s.peek := rfl
@[simp] theorem State.setLineEvents_copies (s : State) (x : BitVec 16) : (s.setLineEvents x).copies = s.copies := rfl
@[simp] theorem State.setLineEvents_slave (s : State) (x : BitVec 16) : (s.setLineEvents x).slave = s.slave := rfl
@[simp] theorem State.setLineEvents_hostMem (s : State) (x : BitVec 16) : (s.setLineEvents x).hostMem = s.hostMem := rfl
@[simp] theorem State.setLineEvents_freeIndex (s : State) (x : BitVec 16) : (s.setLineEvents x).freeIndex = s.freeIndex := rfl
@[simp] theorem State.setLineEvents_pending (s : State) (x : BitVec 16) : (s.setLineEvents x).pending = s.pending := rfl

@[simp] theorem State.setTaps_engine (s : State) (x : Vector (Option TapContext) 12) : (s.setTaps x).engine = s.engine := rfl
@[simp] theorem State.setTaps_clock (s : State) (x : Vector (Option TapContext) 12) : (s.setTaps x).clock = s.clock := rfl
@[simp] theorem State.setTaps_attn (s : State) (x : Vector (Option TapContext) 12) : (s.setTaps x).attn = s.attn := rfl
@[simp] theorem State.setTaps_lines (s : State) (x : Vector (Option TapContext) 12) : (s.setTaps x).lines = s.lines := rfl
@[simp] theorem State.setTaps_lineEvents (s : State) (x : Vector (Option TapContext) 12) : (s.setTaps x).lineEvents = s.lineEvents := rfl
@[simp] theorem State.setTaps_taps (s : State) (x : Vector (Option TapContext) 12) : (s.setTaps x).taps = x := rfl
@[simp] theorem State.setTaps_slots (s : State) (x : Vector (Option TapContext) 12) : (s.setTaps x).slots = s.slots := rfl
@[simp] theorem State.setTaps_recency (s : State) (x : Vector (Option TapContext) 12) : (s.setTaps x).recency = s.recency := rfl
@[simp] theorem State.setTaps_slotWait (s : State) (x : Vector (Option TapContext) 12) : (s.setTaps x).slotWait = s.slotWait := rfl
@[simp] theorem State.setTaps_counts (s : State) (x : Vector (Option TapContext) 12) : (s.setTaps x).counts = s.counts := rfl
@[simp] theorem State.setTaps_pool (s : State) (x : Vector (Option TapContext) 12) : (s.setTaps x).pool = s.pool := rfl
@[simp] theorem State.setTaps_port (s : State) (x : Vector (Option TapContext) 12) : (s.setTaps x).port = s.port := rfl
@[simp] theorem State.setTaps_tariff (s : State) (x : Vector (Option TapContext) 12) : (s.setTaps x).tariff = s.tariff := rfl
@[simp] theorem State.setTaps_ranges (s : State) (x : Vector (Option TapContext) 12) : (s.setTaps x).ranges = s.ranges := rfl
@[simp] theorem State.setTaps_lastWatch (s : State) (x : Vector (Option TapContext) 12) : (s.setTaps x).lastWatch = s.lastWatch := rfl
@[simp] theorem State.setTaps_change (s : State) (x : Vector (Option TapContext) 12) : (s.setTaps x).change = s.change := rfl
@[simp] theorem State.setTaps_urgent (s : State) (x : Vector (Option TapContext) 12) : (s.setTaps x).urgent = s.urgent := rfl
@[simp] theorem State.setTaps_marks (s : State) (x : Vector (Option TapContext) 12) : (s.setTaps x).marks = s.marks := rfl
@[simp] theorem State.setTaps_peek (s : State) (x : Vector (Option TapContext) 12) : (s.setTaps x).peek = s.peek := rfl
@[simp] theorem State.setTaps_copies (s : State) (x : Vector (Option TapContext) 12) : (s.setTaps x).copies = s.copies := rfl
@[simp] theorem State.setTaps_slave (s : State) (x : Vector (Option TapContext) 12) : (s.setTaps x).slave = s.slave := rfl
@[simp] theorem State.setTaps_hostMem (s : State) (x : Vector (Option TapContext) 12) : (s.setTaps x).hostMem = s.hostMem := rfl
@[simp] theorem State.setTaps_freeIndex (s : State) (x : Vector (Option TapContext) 12) : (s.setTaps x).freeIndex = s.freeIndex := rfl
@[simp] theorem State.setTaps_pending (s : State) (x : Vector (Option TapContext) 12) : (s.setTaps x).pending = s.pending := rfl

@[simp] theorem State.setSlots_engine (s : State) (x : Vector Slot 256) : (s.setSlots x).engine = s.engine := rfl
@[simp] theorem State.setSlots_clock (s : State) (x : Vector Slot 256) : (s.setSlots x).clock = s.clock := rfl
@[simp] theorem State.setSlots_attn (s : State) (x : Vector Slot 256) : (s.setSlots x).attn = s.attn := rfl
@[simp] theorem State.setSlots_lines (s : State) (x : Vector Slot 256) : (s.setSlots x).lines = s.lines := rfl
@[simp] theorem State.setSlots_lineEvents (s : State) (x : Vector Slot 256) : (s.setSlots x).lineEvents = s.lineEvents := rfl
@[simp] theorem State.setSlots_taps (s : State) (x : Vector Slot 256) : (s.setSlots x).taps = s.taps := rfl
@[simp] theorem State.setSlots_slots (s : State) (x : Vector Slot 256) : (s.setSlots x).slots = x := rfl
@[simp] theorem State.setSlots_recency (s : State) (x : Vector Slot 256) : (s.setSlots x).recency = s.recency := rfl
@[simp] theorem State.setSlots_slotWait (s : State) (x : Vector Slot 256) : (s.setSlots x).slotWait = s.slotWait := rfl
@[simp] theorem State.setSlots_counts (s : State) (x : Vector Slot 256) : (s.setSlots x).counts = s.counts := rfl
@[simp] theorem State.setSlots_pool (s : State) (x : Vector Slot 256) : (s.setSlots x).pool = s.pool := rfl
@[simp] theorem State.setSlots_port (s : State) (x : Vector Slot 256) : (s.setSlots x).port = s.port := rfl
@[simp] theorem State.setSlots_tariff (s : State) (x : Vector Slot 256) : (s.setSlots x).tariff = s.tariff := rfl
@[simp] theorem State.setSlots_ranges (s : State) (x : Vector Slot 256) : (s.setSlots x).ranges = s.ranges := rfl
@[simp] theorem State.setSlots_lastWatch (s : State) (x : Vector Slot 256) : (s.setSlots x).lastWatch = s.lastWatch := rfl
@[simp] theorem State.setSlots_change (s : State) (x : Vector Slot 256) : (s.setSlots x).change = s.change := rfl
@[simp] theorem State.setSlots_urgent (s : State) (x : Vector Slot 256) : (s.setSlots x).urgent = s.urgent := rfl
@[simp] theorem State.setSlots_marks (s : State) (x : Vector Slot 256) : (s.setSlots x).marks = s.marks := rfl
@[simp] theorem State.setSlots_peek (s : State) (x : Vector Slot 256) : (s.setSlots x).peek = s.peek := rfl
@[simp] theorem State.setSlots_copies (s : State) (x : Vector Slot 256) : (s.setSlots x).copies = s.copies := rfl
@[simp] theorem State.setSlots_slave (s : State) (x : Vector Slot 256) : (s.setSlots x).slave = s.slave := rfl
@[simp] theorem State.setSlots_hostMem (s : State) (x : Vector Slot 256) : (s.setSlots x).hostMem = s.hostMem := rfl
@[simp] theorem State.setSlots_freeIndex (s : State) (x : Vector Slot 256) : (s.setSlots x).freeIndex = s.freeIndex := rfl
@[simp] theorem State.setSlots_pending (s : State) (x : Vector Slot 256) : (s.setSlots x).pending = s.pending := rfl

@[simp] theorem State.setRecency_engine (s : State) (x : List SlotNo) : (s.setRecency x).engine = s.engine := rfl
@[simp] theorem State.setRecency_clock (s : State) (x : List SlotNo) : (s.setRecency x).clock = s.clock := rfl
@[simp] theorem State.setRecency_attn (s : State) (x : List SlotNo) : (s.setRecency x).attn = s.attn := rfl
@[simp] theorem State.setRecency_lines (s : State) (x : List SlotNo) : (s.setRecency x).lines = s.lines := rfl
@[simp] theorem State.setRecency_lineEvents (s : State) (x : List SlotNo) : (s.setRecency x).lineEvents = s.lineEvents := rfl
@[simp] theorem State.setRecency_taps (s : State) (x : List SlotNo) : (s.setRecency x).taps = s.taps := rfl
@[simp] theorem State.setRecency_slots (s : State) (x : List SlotNo) : (s.setRecency x).slots = s.slots := rfl
@[simp] theorem State.setRecency_recency (s : State) (x : List SlotNo) : (s.setRecency x).recency = x := rfl
@[simp] theorem State.setRecency_slotWait (s : State) (x : List SlotNo) : (s.setRecency x).slotWait = s.slotWait := rfl
@[simp] theorem State.setRecency_counts (s : State) (x : List SlotNo) : (s.setRecency x).counts = s.counts := rfl
@[simp] theorem State.setRecency_pool (s : State) (x : List SlotNo) : (s.setRecency x).pool = s.pool := rfl
@[simp] theorem State.setRecency_port (s : State) (x : List SlotNo) : (s.setRecency x).port = s.port := rfl
@[simp] theorem State.setRecency_tariff (s : State) (x : List SlotNo) : (s.setRecency x).tariff = s.tariff := rfl
@[simp] theorem State.setRecency_ranges (s : State) (x : List SlotNo) : (s.setRecency x).ranges = s.ranges := rfl
@[simp] theorem State.setRecency_lastWatch (s : State) (x : List SlotNo) : (s.setRecency x).lastWatch = s.lastWatch := rfl
@[simp] theorem State.setRecency_change (s : State) (x : List SlotNo) : (s.setRecency x).change = s.change := rfl
@[simp] theorem State.setRecency_urgent (s : State) (x : List SlotNo) : (s.setRecency x).urgent = s.urgent := rfl
@[simp] theorem State.setRecency_marks (s : State) (x : List SlotNo) : (s.setRecency x).marks = s.marks := rfl
@[simp] theorem State.setRecency_peek (s : State) (x : List SlotNo) : (s.setRecency x).peek = s.peek := rfl
@[simp] theorem State.setRecency_copies (s : State) (x : List SlotNo) : (s.setRecency x).copies = s.copies := rfl
@[simp] theorem State.setRecency_slave (s : State) (x : List SlotNo) : (s.setRecency x).slave = s.slave := rfl
@[simp] theorem State.setRecency_hostMem (s : State) (x : List SlotNo) : (s.setRecency x).hostMem = s.hostMem := rfl
@[simp] theorem State.setRecency_freeIndex (s : State) (x : List SlotNo) : (s.setRecency x).freeIndex = s.freeIndex := rfl
@[simp] theorem State.setRecency_pending (s : State) (x : List SlotNo) : (s.setRecency x).pending = s.pending := rfl

@[simp] theorem State.setSlotWait_engine (s : State) (x : List Waiter) : (s.setSlotWait x).engine = s.engine := rfl
@[simp] theorem State.setSlotWait_clock (s : State) (x : List Waiter) : (s.setSlotWait x).clock = s.clock := rfl
@[simp] theorem State.setSlotWait_attn (s : State) (x : List Waiter) : (s.setSlotWait x).attn = s.attn := rfl
@[simp] theorem State.setSlotWait_lines (s : State) (x : List Waiter) : (s.setSlotWait x).lines = s.lines := rfl
@[simp] theorem State.setSlotWait_lineEvents (s : State) (x : List Waiter) : (s.setSlotWait x).lineEvents = s.lineEvents := rfl
@[simp] theorem State.setSlotWait_taps (s : State) (x : List Waiter) : (s.setSlotWait x).taps = s.taps := rfl
@[simp] theorem State.setSlotWait_slots (s : State) (x : List Waiter) : (s.setSlotWait x).slots = s.slots := rfl
@[simp] theorem State.setSlotWait_recency (s : State) (x : List Waiter) : (s.setSlotWait x).recency = s.recency := rfl
@[simp] theorem State.setSlotWait_slotWait (s : State) (x : List Waiter) : (s.setSlotWait x).slotWait = x := rfl
@[simp] theorem State.setSlotWait_counts (s : State) (x : List Waiter) : (s.setSlotWait x).counts = s.counts := rfl
@[simp] theorem State.setSlotWait_pool (s : State) (x : List Waiter) : (s.setSlotWait x).pool = s.pool := rfl
@[simp] theorem State.setSlotWait_port (s : State) (x : List Waiter) : (s.setSlotWait x).port = s.port := rfl
@[simp] theorem State.setSlotWait_tariff (s : State) (x : List Waiter) : (s.setSlotWait x).tariff = s.tariff := rfl
@[simp] theorem State.setSlotWait_ranges (s : State) (x : List Waiter) : (s.setSlotWait x).ranges = s.ranges := rfl
@[simp] theorem State.setSlotWait_lastWatch (s : State) (x : List Waiter) : (s.setSlotWait x).lastWatch = s.lastWatch := rfl
@[simp] theorem State.setSlotWait_change (s : State) (x : List Waiter) : (s.setSlotWait x).change = s.change := rfl
@[simp] theorem State.setSlotWait_urgent (s : State) (x : List Waiter) : (s.setSlotWait x).urgent = s.urgent := rfl
@[simp] theorem State.setSlotWait_marks (s : State) (x : List Waiter) : (s.setSlotWait x).marks = s.marks := rfl
@[simp] theorem State.setSlotWait_peek (s : State) (x : List Waiter) : (s.setSlotWait x).peek = s.peek := rfl
@[simp] theorem State.setSlotWait_copies (s : State) (x : List Waiter) : (s.setSlotWait x).copies = s.copies := rfl
@[simp] theorem State.setSlotWait_slave (s : State) (x : List Waiter) : (s.setSlotWait x).slave = s.slave := rfl
@[simp] theorem State.setSlotWait_hostMem (s : State) (x : List Waiter) : (s.setSlotWait x).hostMem = s.hostMem := rfl
@[simp] theorem State.setSlotWait_freeIndex (s : State) (x : List Waiter) : (s.setSlotWait x).freeIndex = s.freeIndex := rfl
@[simp] theorem State.setSlotWait_pending (s : State) (x : List Waiter) : (s.setSlotWait x).pending = s.pending := rfl

@[simp] theorem State.setCounts_engine (s : State) (x : CacheCounts) : (s.setCounts x).engine = s.engine := rfl
@[simp] theorem State.setCounts_clock (s : State) (x : CacheCounts) : (s.setCounts x).clock = s.clock := rfl
@[simp] theorem State.setCounts_attn (s : State) (x : CacheCounts) : (s.setCounts x).attn = s.attn := rfl
@[simp] theorem State.setCounts_lines (s : State) (x : CacheCounts) : (s.setCounts x).lines = s.lines := rfl
@[simp] theorem State.setCounts_lineEvents (s : State) (x : CacheCounts) : (s.setCounts x).lineEvents = s.lineEvents := rfl
@[simp] theorem State.setCounts_taps (s : State) (x : CacheCounts) : (s.setCounts x).taps = s.taps := rfl
@[simp] theorem State.setCounts_slots (s : State) (x : CacheCounts) : (s.setCounts x).slots = s.slots := rfl
@[simp] theorem State.setCounts_recency (s : State) (x : CacheCounts) : (s.setCounts x).recency = s.recency := rfl
@[simp] theorem State.setCounts_slotWait (s : State) (x : CacheCounts) : (s.setCounts x).slotWait = s.slotWait := rfl
@[simp] theorem State.setCounts_counts (s : State) (x : CacheCounts) : (s.setCounts x).counts = x := rfl
@[simp] theorem State.setCounts_pool (s : State) (x : CacheCounts) : (s.setCounts x).pool = s.pool := rfl
@[simp] theorem State.setCounts_port (s : State) (x : CacheCounts) : (s.setCounts x).port = s.port := rfl
@[simp] theorem State.setCounts_tariff (s : State) (x : CacheCounts) : (s.setCounts x).tariff = s.tariff := rfl
@[simp] theorem State.setCounts_ranges (s : State) (x : CacheCounts) : (s.setCounts x).ranges = s.ranges := rfl
@[simp] theorem State.setCounts_lastWatch (s : State) (x : CacheCounts) : (s.setCounts x).lastWatch = s.lastWatch := rfl
@[simp] theorem State.setCounts_change (s : State) (x : CacheCounts) : (s.setCounts x).change = s.change := rfl
@[simp] theorem State.setCounts_urgent (s : State) (x : CacheCounts) : (s.setCounts x).urgent = s.urgent := rfl
@[simp] theorem State.setCounts_marks (s : State) (x : CacheCounts) : (s.setCounts x).marks = s.marks := rfl
@[simp] theorem State.setCounts_peek (s : State) (x : CacheCounts) : (s.setCounts x).peek = s.peek := rfl
@[simp] theorem State.setCounts_copies (s : State) (x : CacheCounts) : (s.setCounts x).copies = s.copies := rfl
@[simp] theorem State.setCounts_slave (s : State) (x : CacheCounts) : (s.setCounts x).slave = s.slave := rfl
@[simp] theorem State.setCounts_hostMem (s : State) (x : CacheCounts) : (s.setCounts x).hostMem = s.hostMem := rfl
@[simp] theorem State.setCounts_freeIndex (s : State) (x : CacheCounts) : (s.setCounts x).freeIndex = s.freeIndex := rfl
@[simp] theorem State.setCounts_pending (s : State) (x : CacheCounts) : (s.setCounts x).pending = s.pending := rfl

@[simp] theorem State.setPool_engine (s : State) (x : CellPool) : (s.setPool x).engine = s.engine := rfl
@[simp] theorem State.setPool_clock (s : State) (x : CellPool) : (s.setPool x).clock = s.clock := rfl
@[simp] theorem State.setPool_attn (s : State) (x : CellPool) : (s.setPool x).attn = s.attn := rfl
@[simp] theorem State.setPool_lines (s : State) (x : CellPool) : (s.setPool x).lines = s.lines := rfl
@[simp] theorem State.setPool_lineEvents (s : State) (x : CellPool) : (s.setPool x).lineEvents = s.lineEvents := rfl
@[simp] theorem State.setPool_taps (s : State) (x : CellPool) : (s.setPool x).taps = s.taps := rfl
@[simp] theorem State.setPool_slots (s : State) (x : CellPool) : (s.setPool x).slots = s.slots := rfl
@[simp] theorem State.setPool_recency (s : State) (x : CellPool) : (s.setPool x).recency = s.recency := rfl
@[simp] theorem State.setPool_slotWait (s : State) (x : CellPool) : (s.setPool x).slotWait = s.slotWait := rfl
@[simp] theorem State.setPool_counts (s : State) (x : CellPool) : (s.setPool x).counts = s.counts := rfl
@[simp] theorem State.setPool_pool (s : State) (x : CellPool) : (s.setPool x).pool = x := rfl
@[simp] theorem State.setPool_port (s : State) (x : CellPool) : (s.setPool x).port = s.port := rfl
@[simp] theorem State.setPool_tariff (s : State) (x : CellPool) : (s.setPool x).tariff = s.tariff := rfl
@[simp] theorem State.setPool_ranges (s : State) (x : CellPool) : (s.setPool x).ranges = s.ranges := rfl
@[simp] theorem State.setPool_lastWatch (s : State) (x : CellPool) : (s.setPool x).lastWatch = s.lastWatch := rfl
@[simp] theorem State.setPool_change (s : State) (x : CellPool) : (s.setPool x).change = s.change := rfl
@[simp] theorem State.setPool_urgent (s : State) (x : CellPool) : (s.setPool x).urgent = s.urgent := rfl
@[simp] theorem State.setPool_marks (s : State) (x : CellPool) : (s.setPool x).marks = s.marks := rfl
@[simp] theorem State.setPool_peek (s : State) (x : CellPool) : (s.setPool x).peek = s.peek := rfl
@[simp] theorem State.setPool_copies (s : State) (x : CellPool) : (s.setPool x).copies = s.copies := rfl
@[simp] theorem State.setPool_slave (s : State) (x : CellPool) : (s.setPool x).slave = s.slave := rfl
@[simp] theorem State.setPool_hostMem (s : State) (x : CellPool) : (s.setPool x).hostMem = s.hostMem := rfl
@[simp] theorem State.setPool_freeIndex (s : State) (x : CellPool) : (s.setPool x).freeIndex = s.freeIndex := rfl
@[simp] theorem State.setPool_pending (s : State) (x : CellPool) : (s.setPool x).pending = s.pending := rfl

@[simp] theorem State.setPort_engine (s : State) (x : Port) : (s.setPort x).engine = s.engine := rfl
@[simp] theorem State.setPort_clock (s : State) (x : Port) : (s.setPort x).clock = s.clock := rfl
@[simp] theorem State.setPort_attn (s : State) (x : Port) : (s.setPort x).attn = s.attn := rfl
@[simp] theorem State.setPort_lines (s : State) (x : Port) : (s.setPort x).lines = s.lines := rfl
@[simp] theorem State.setPort_lineEvents (s : State) (x : Port) : (s.setPort x).lineEvents = s.lineEvents := rfl
@[simp] theorem State.setPort_taps (s : State) (x : Port) : (s.setPort x).taps = s.taps := rfl
@[simp] theorem State.setPort_slots (s : State) (x : Port) : (s.setPort x).slots = s.slots := rfl
@[simp] theorem State.setPort_recency (s : State) (x : Port) : (s.setPort x).recency = s.recency := rfl
@[simp] theorem State.setPort_slotWait (s : State) (x : Port) : (s.setPort x).slotWait = s.slotWait := rfl
@[simp] theorem State.setPort_counts (s : State) (x : Port) : (s.setPort x).counts = s.counts := rfl
@[simp] theorem State.setPort_pool (s : State) (x : Port) : (s.setPort x).pool = s.pool := rfl
@[simp] theorem State.setPort_port (s : State) (x : Port) : (s.setPort x).port = x := rfl
@[simp] theorem State.setPort_tariff (s : State) (x : Port) : (s.setPort x).tariff = s.tariff := rfl
@[simp] theorem State.setPort_ranges (s : State) (x : Port) : (s.setPort x).ranges = s.ranges := rfl
@[simp] theorem State.setPort_lastWatch (s : State) (x : Port) : (s.setPort x).lastWatch = s.lastWatch := rfl
@[simp] theorem State.setPort_change (s : State) (x : Port) : (s.setPort x).change = s.change := rfl
@[simp] theorem State.setPort_urgent (s : State) (x : Port) : (s.setPort x).urgent = s.urgent := rfl
@[simp] theorem State.setPort_marks (s : State) (x : Port) : (s.setPort x).marks = s.marks := rfl
@[simp] theorem State.setPort_peek (s : State) (x : Port) : (s.setPort x).peek = s.peek := rfl
@[simp] theorem State.setPort_copies (s : State) (x : Port) : (s.setPort x).copies = s.copies := rfl
@[simp] theorem State.setPort_slave (s : State) (x : Port) : (s.setPort x).slave = s.slave := rfl
@[simp] theorem State.setPort_hostMem (s : State) (x : Port) : (s.setPort x).hostMem = s.hostMem := rfl
@[simp] theorem State.setPort_freeIndex (s : State) (x : Port) : (s.setPort x).freeIndex = s.freeIndex := rfl
@[simp] theorem State.setPort_pending (s : State) (x : Port) : (s.setPort x).pending = s.pending := rfl

@[simp] theorem State.setTariff_engine (s : State) (x : Tariff) : (s.setTariff x).engine = s.engine := rfl
@[simp] theorem State.setTariff_clock (s : State) (x : Tariff) : (s.setTariff x).clock = s.clock := rfl
@[simp] theorem State.setTariff_attn (s : State) (x : Tariff) : (s.setTariff x).attn = s.attn := rfl
@[simp] theorem State.setTariff_lines (s : State) (x : Tariff) : (s.setTariff x).lines = s.lines := rfl
@[simp] theorem State.setTariff_lineEvents (s : State) (x : Tariff) : (s.setTariff x).lineEvents = s.lineEvents := rfl
@[simp] theorem State.setTariff_taps (s : State) (x : Tariff) : (s.setTariff x).taps = s.taps := rfl
@[simp] theorem State.setTariff_slots (s : State) (x : Tariff) : (s.setTariff x).slots = s.slots := rfl
@[simp] theorem State.setTariff_recency (s : State) (x : Tariff) : (s.setTariff x).recency = s.recency := rfl
@[simp] theorem State.setTariff_slotWait (s : State) (x : Tariff) : (s.setTariff x).slotWait = s.slotWait := rfl
@[simp] theorem State.setTariff_counts (s : State) (x : Tariff) : (s.setTariff x).counts = s.counts := rfl
@[simp] theorem State.setTariff_pool (s : State) (x : Tariff) : (s.setTariff x).pool = s.pool := rfl
@[simp] theorem State.setTariff_port (s : State) (x : Tariff) : (s.setTariff x).port = s.port := rfl
@[simp] theorem State.setTariff_tariff (s : State) (x : Tariff) : (s.setTariff x).tariff = x := rfl
@[simp] theorem State.setTariff_ranges (s : State) (x : Tariff) : (s.setTariff x).ranges = s.ranges := rfl
@[simp] theorem State.setTariff_lastWatch (s : State) (x : Tariff) : (s.setTariff x).lastWatch = s.lastWatch := rfl
@[simp] theorem State.setTariff_change (s : State) (x : Tariff) : (s.setTariff x).change = s.change := rfl
@[simp] theorem State.setTariff_urgent (s : State) (x : Tariff) : (s.setTariff x).urgent = s.urgent := rfl
@[simp] theorem State.setTariff_marks (s : State) (x : Tariff) : (s.setTariff x).marks = s.marks := rfl
@[simp] theorem State.setTariff_peek (s : State) (x : Tariff) : (s.setTariff x).peek = s.peek := rfl
@[simp] theorem State.setTariff_copies (s : State) (x : Tariff) : (s.setTariff x).copies = s.copies := rfl
@[simp] theorem State.setTariff_slave (s : State) (x : Tariff) : (s.setTariff x).slave = s.slave := rfl
@[simp] theorem State.setTariff_hostMem (s : State) (x : Tariff) : (s.setTariff x).hostMem = s.hostMem := rfl
@[simp] theorem State.setTariff_freeIndex (s : State) (x : Tariff) : (s.setTariff x).freeIndex = s.freeIndex := rfl
@[simp] theorem State.setTariff_pending (s : State) (x : Tariff) : (s.setTariff x).pending = s.pending := rfl

@[simp] theorem State.setRanges_engine (s : State) (x : Vector RangeRule 16) : (s.setRanges x).engine = s.engine := rfl
@[simp] theorem State.setRanges_clock (s : State) (x : Vector RangeRule 16) : (s.setRanges x).clock = s.clock := rfl
@[simp] theorem State.setRanges_attn (s : State) (x : Vector RangeRule 16) : (s.setRanges x).attn = s.attn := rfl
@[simp] theorem State.setRanges_lines (s : State) (x : Vector RangeRule 16) : (s.setRanges x).lines = s.lines := rfl
@[simp] theorem State.setRanges_lineEvents (s : State) (x : Vector RangeRule 16) : (s.setRanges x).lineEvents = s.lineEvents := rfl
@[simp] theorem State.setRanges_taps (s : State) (x : Vector RangeRule 16) : (s.setRanges x).taps = s.taps := rfl
@[simp] theorem State.setRanges_slots (s : State) (x : Vector RangeRule 16) : (s.setRanges x).slots = s.slots := rfl
@[simp] theorem State.setRanges_recency (s : State) (x : Vector RangeRule 16) : (s.setRanges x).recency = s.recency := rfl
@[simp] theorem State.setRanges_slotWait (s : State) (x : Vector RangeRule 16) : (s.setRanges x).slotWait = s.slotWait := rfl
@[simp] theorem State.setRanges_counts (s : State) (x : Vector RangeRule 16) : (s.setRanges x).counts = s.counts := rfl
@[simp] theorem State.setRanges_pool (s : State) (x : Vector RangeRule 16) : (s.setRanges x).pool = s.pool := rfl
@[simp] theorem State.setRanges_port (s : State) (x : Vector RangeRule 16) : (s.setRanges x).port = s.port := rfl
@[simp] theorem State.setRanges_tariff (s : State) (x : Vector RangeRule 16) : (s.setRanges x).tariff = s.tariff := rfl
@[simp] theorem State.setRanges_ranges (s : State) (x : Vector RangeRule 16) : (s.setRanges x).ranges = x := rfl
@[simp] theorem State.setRanges_lastWatch (s : State) (x : Vector RangeRule 16) : (s.setRanges x).lastWatch = s.lastWatch := rfl
@[simp] theorem State.setRanges_change (s : State) (x : Vector RangeRule 16) : (s.setRanges x).change = s.change := rfl
@[simp] theorem State.setRanges_urgent (s : State) (x : Vector RangeRule 16) : (s.setRanges x).urgent = s.urgent := rfl
@[simp] theorem State.setRanges_marks (s : State) (x : Vector RangeRule 16) : (s.setRanges x).marks = s.marks := rfl
@[simp] theorem State.setRanges_peek (s : State) (x : Vector RangeRule 16) : (s.setRanges x).peek = s.peek := rfl
@[simp] theorem State.setRanges_copies (s : State) (x : Vector RangeRule 16) : (s.setRanges x).copies = s.copies := rfl
@[simp] theorem State.setRanges_slave (s : State) (x : Vector RangeRule 16) : (s.setRanges x).slave = s.slave := rfl
@[simp] theorem State.setRanges_hostMem (s : State) (x : Vector RangeRule 16) : (s.setRanges x).hostMem = s.hostMem := rfl
@[simp] theorem State.setRanges_freeIndex (s : State) (x : Vector RangeRule 16) : (s.setRanges x).freeIndex = s.freeIndex := rfl
@[simp] theorem State.setRanges_pending (s : State) (x : Vector RangeRule 16) : (s.setRanges x).pending = s.pending := rfl

@[simp] theorem State.setLastWatch_engine (s : State) (x : LastWatch) : (s.setLastWatch x).engine = s.engine := rfl
@[simp] theorem State.setLastWatch_clock (s : State) (x : LastWatch) : (s.setLastWatch x).clock = s.clock := rfl
@[simp] theorem State.setLastWatch_attn (s : State) (x : LastWatch) : (s.setLastWatch x).attn = s.attn := rfl
@[simp] theorem State.setLastWatch_lines (s : State) (x : LastWatch) : (s.setLastWatch x).lines = s.lines := rfl
@[simp] theorem State.setLastWatch_lineEvents (s : State) (x : LastWatch) : (s.setLastWatch x).lineEvents = s.lineEvents := rfl
@[simp] theorem State.setLastWatch_taps (s : State) (x : LastWatch) : (s.setLastWatch x).taps = s.taps := rfl
@[simp] theorem State.setLastWatch_slots (s : State) (x : LastWatch) : (s.setLastWatch x).slots = s.slots := rfl
@[simp] theorem State.setLastWatch_recency (s : State) (x : LastWatch) : (s.setLastWatch x).recency = s.recency := rfl
@[simp] theorem State.setLastWatch_slotWait (s : State) (x : LastWatch) : (s.setLastWatch x).slotWait = s.slotWait := rfl
@[simp] theorem State.setLastWatch_counts (s : State) (x : LastWatch) : (s.setLastWatch x).counts = s.counts := rfl
@[simp] theorem State.setLastWatch_pool (s : State) (x : LastWatch) : (s.setLastWatch x).pool = s.pool := rfl
@[simp] theorem State.setLastWatch_port (s : State) (x : LastWatch) : (s.setLastWatch x).port = s.port := rfl
@[simp] theorem State.setLastWatch_tariff (s : State) (x : LastWatch) : (s.setLastWatch x).tariff = s.tariff := rfl
@[simp] theorem State.setLastWatch_ranges (s : State) (x : LastWatch) : (s.setLastWatch x).ranges = s.ranges := rfl
@[simp] theorem State.setLastWatch_lastWatch (s : State) (x : LastWatch) : (s.setLastWatch x).lastWatch = x := rfl
@[simp] theorem State.setLastWatch_change (s : State) (x : LastWatch) : (s.setLastWatch x).change = s.change := rfl
@[simp] theorem State.setLastWatch_urgent (s : State) (x : LastWatch) : (s.setLastWatch x).urgent = s.urgent := rfl
@[simp] theorem State.setLastWatch_marks (s : State) (x : LastWatch) : (s.setLastWatch x).marks = s.marks := rfl
@[simp] theorem State.setLastWatch_peek (s : State) (x : LastWatch) : (s.setLastWatch x).peek = s.peek := rfl
@[simp] theorem State.setLastWatch_copies (s : State) (x : LastWatch) : (s.setLastWatch x).copies = s.copies := rfl
@[simp] theorem State.setLastWatch_slave (s : State) (x : LastWatch) : (s.setLastWatch x).slave = s.slave := rfl
@[simp] theorem State.setLastWatch_hostMem (s : State) (x : LastWatch) : (s.setLastWatch x).hostMem = s.hostMem := rfl
@[simp] theorem State.setLastWatch_freeIndex (s : State) (x : LastWatch) : (s.setLastWatch x).freeIndex = s.freeIndex := rfl
@[simp] theorem State.setLastWatch_pending (s : State) (x : LastWatch) : (s.setLastWatch x).pending = s.pending := rfl

@[simp] theorem State.setChange_engine (s : State) (x : ChangeUnit) : (s.setChange x).engine = s.engine := rfl
@[simp] theorem State.setChange_clock (s : State) (x : ChangeUnit) : (s.setChange x).clock = s.clock := rfl
@[simp] theorem State.setChange_attn (s : State) (x : ChangeUnit) : (s.setChange x).attn = s.attn := rfl
@[simp] theorem State.setChange_lines (s : State) (x : ChangeUnit) : (s.setChange x).lines = s.lines := rfl
@[simp] theorem State.setChange_lineEvents (s : State) (x : ChangeUnit) : (s.setChange x).lineEvents = s.lineEvents := rfl
@[simp] theorem State.setChange_taps (s : State) (x : ChangeUnit) : (s.setChange x).taps = s.taps := rfl
@[simp] theorem State.setChange_slots (s : State) (x : ChangeUnit) : (s.setChange x).slots = s.slots := rfl
@[simp] theorem State.setChange_recency (s : State) (x : ChangeUnit) : (s.setChange x).recency = s.recency := rfl
@[simp] theorem State.setChange_slotWait (s : State) (x : ChangeUnit) : (s.setChange x).slotWait = s.slotWait := rfl
@[simp] theorem State.setChange_counts (s : State) (x : ChangeUnit) : (s.setChange x).counts = s.counts := rfl
@[simp] theorem State.setChange_pool (s : State) (x : ChangeUnit) : (s.setChange x).pool = s.pool := rfl
@[simp] theorem State.setChange_port (s : State) (x : ChangeUnit) : (s.setChange x).port = s.port := rfl
@[simp] theorem State.setChange_tariff (s : State) (x : ChangeUnit) : (s.setChange x).tariff = s.tariff := rfl
@[simp] theorem State.setChange_ranges (s : State) (x : ChangeUnit) : (s.setChange x).ranges = s.ranges := rfl
@[simp] theorem State.setChange_lastWatch (s : State) (x : ChangeUnit) : (s.setChange x).lastWatch = s.lastWatch := rfl
@[simp] theorem State.setChange_change (s : State) (x : ChangeUnit) : (s.setChange x).change = x := rfl
@[simp] theorem State.setChange_urgent (s : State) (x : ChangeUnit) : (s.setChange x).urgent = s.urgent := rfl
@[simp] theorem State.setChange_marks (s : State) (x : ChangeUnit) : (s.setChange x).marks = s.marks := rfl
@[simp] theorem State.setChange_peek (s : State) (x : ChangeUnit) : (s.setChange x).peek = s.peek := rfl
@[simp] theorem State.setChange_copies (s : State) (x : ChangeUnit) : (s.setChange x).copies = s.copies := rfl
@[simp] theorem State.setChange_slave (s : State) (x : ChangeUnit) : (s.setChange x).slave = s.slave := rfl
@[simp] theorem State.setChange_hostMem (s : State) (x : ChangeUnit) : (s.setChange x).hostMem = s.hostMem := rfl
@[simp] theorem State.setChange_freeIndex (s : State) (x : ChangeUnit) : (s.setChange x).freeIndex = s.freeIndex := rfl
@[simp] theorem State.setChange_pending (s : State) (x : ChangeUnit) : (s.setChange x).pending = s.pending := rfl

@[simp] theorem State.setUrgent_engine (s : State) (x : Urgent) : (s.setUrgent x).engine = s.engine := rfl
@[simp] theorem State.setUrgent_clock (s : State) (x : Urgent) : (s.setUrgent x).clock = s.clock := rfl
@[simp] theorem State.setUrgent_attn (s : State) (x : Urgent) : (s.setUrgent x).attn = s.attn := rfl
@[simp] theorem State.setUrgent_lines (s : State) (x : Urgent) : (s.setUrgent x).lines = s.lines := rfl
@[simp] theorem State.setUrgent_lineEvents (s : State) (x : Urgent) : (s.setUrgent x).lineEvents = s.lineEvents := rfl
@[simp] theorem State.setUrgent_taps (s : State) (x : Urgent) : (s.setUrgent x).taps = s.taps := rfl
@[simp] theorem State.setUrgent_slots (s : State) (x : Urgent) : (s.setUrgent x).slots = s.slots := rfl
@[simp] theorem State.setUrgent_recency (s : State) (x : Urgent) : (s.setUrgent x).recency = s.recency := rfl
@[simp] theorem State.setUrgent_slotWait (s : State) (x : Urgent) : (s.setUrgent x).slotWait = s.slotWait := rfl
@[simp] theorem State.setUrgent_counts (s : State) (x : Urgent) : (s.setUrgent x).counts = s.counts := rfl
@[simp] theorem State.setUrgent_pool (s : State) (x : Urgent) : (s.setUrgent x).pool = s.pool := rfl
@[simp] theorem State.setUrgent_port (s : State) (x : Urgent) : (s.setUrgent x).port = s.port := rfl
@[simp] theorem State.setUrgent_tariff (s : State) (x : Urgent) : (s.setUrgent x).tariff = s.tariff := rfl
@[simp] theorem State.setUrgent_ranges (s : State) (x : Urgent) : (s.setUrgent x).ranges = s.ranges := rfl
@[simp] theorem State.setUrgent_lastWatch (s : State) (x : Urgent) : (s.setUrgent x).lastWatch = s.lastWatch := rfl
@[simp] theorem State.setUrgent_change (s : State) (x : Urgent) : (s.setUrgent x).change = s.change := rfl
@[simp] theorem State.setUrgent_urgent (s : State) (x : Urgent) : (s.setUrgent x).urgent = x := rfl
@[simp] theorem State.setUrgent_marks (s : State) (x : Urgent) : (s.setUrgent x).marks = s.marks := rfl
@[simp] theorem State.setUrgent_peek (s : State) (x : Urgent) : (s.setUrgent x).peek = s.peek := rfl
@[simp] theorem State.setUrgent_copies (s : State) (x : Urgent) : (s.setUrgent x).copies = s.copies := rfl
@[simp] theorem State.setUrgent_slave (s : State) (x : Urgent) : (s.setUrgent x).slave = s.slave := rfl
@[simp] theorem State.setUrgent_hostMem (s : State) (x : Urgent) : (s.setUrgent x).hostMem = s.hostMem := rfl
@[simp] theorem State.setUrgent_freeIndex (s : State) (x : Urgent) : (s.setUrgent x).freeIndex = s.freeIndex := rfl
@[simp] theorem State.setUrgent_pending (s : State) (x : Urgent) : (s.setUrgent x).pending = s.pending := rfl

@[simp] theorem State.setMarks_engine (s : State) (x : Vector (Option Ident) 16) : (s.setMarks x).engine = s.engine := rfl
@[simp] theorem State.setMarks_clock (s : State) (x : Vector (Option Ident) 16) : (s.setMarks x).clock = s.clock := rfl
@[simp] theorem State.setMarks_attn (s : State) (x : Vector (Option Ident) 16) : (s.setMarks x).attn = s.attn := rfl
@[simp] theorem State.setMarks_lines (s : State) (x : Vector (Option Ident) 16) : (s.setMarks x).lines = s.lines := rfl
@[simp] theorem State.setMarks_lineEvents (s : State) (x : Vector (Option Ident) 16) : (s.setMarks x).lineEvents = s.lineEvents := rfl
@[simp] theorem State.setMarks_taps (s : State) (x : Vector (Option Ident) 16) : (s.setMarks x).taps = s.taps := rfl
@[simp] theorem State.setMarks_slots (s : State) (x : Vector (Option Ident) 16) : (s.setMarks x).slots = s.slots := rfl
@[simp] theorem State.setMarks_recency (s : State) (x : Vector (Option Ident) 16) : (s.setMarks x).recency = s.recency := rfl
@[simp] theorem State.setMarks_slotWait (s : State) (x : Vector (Option Ident) 16) : (s.setMarks x).slotWait = s.slotWait := rfl
@[simp] theorem State.setMarks_counts (s : State) (x : Vector (Option Ident) 16) : (s.setMarks x).counts = s.counts := rfl
@[simp] theorem State.setMarks_pool (s : State) (x : Vector (Option Ident) 16) : (s.setMarks x).pool = s.pool := rfl
@[simp] theorem State.setMarks_port (s : State) (x : Vector (Option Ident) 16) : (s.setMarks x).port = s.port := rfl
@[simp] theorem State.setMarks_tariff (s : State) (x : Vector (Option Ident) 16) : (s.setMarks x).tariff = s.tariff := rfl
@[simp] theorem State.setMarks_ranges (s : State) (x : Vector (Option Ident) 16) : (s.setMarks x).ranges = s.ranges := rfl
@[simp] theorem State.setMarks_lastWatch (s : State) (x : Vector (Option Ident) 16) : (s.setMarks x).lastWatch = s.lastWatch := rfl
@[simp] theorem State.setMarks_change (s : State) (x : Vector (Option Ident) 16) : (s.setMarks x).change = s.change := rfl
@[simp] theorem State.setMarks_urgent (s : State) (x : Vector (Option Ident) 16) : (s.setMarks x).urgent = s.urgent := rfl
@[simp] theorem State.setMarks_marks (s : State) (x : Vector (Option Ident) 16) : (s.setMarks x).marks = x := rfl
@[simp] theorem State.setMarks_peek (s : State) (x : Vector (Option Ident) 16) : (s.setMarks x).peek = s.peek := rfl
@[simp] theorem State.setMarks_copies (s : State) (x : Vector (Option Ident) 16) : (s.setMarks x).copies = s.copies := rfl
@[simp] theorem State.setMarks_slave (s : State) (x : Vector (Option Ident) 16) : (s.setMarks x).slave = s.slave := rfl
@[simp] theorem State.setMarks_hostMem (s : State) (x : Vector (Option Ident) 16) : (s.setMarks x).hostMem = s.hostMem := rfl
@[simp] theorem State.setMarks_freeIndex (s : State) (x : Vector (Option Ident) 16) : (s.setMarks x).freeIndex = s.freeIndex := rfl
@[simp] theorem State.setMarks_pending (s : State) (x : Vector (Option Ident) 16) : (s.setMarks x).pending = s.pending := rfl

@[simp] theorem State.setPeek_engine (s : State) (x : PeekWindow) : (s.setPeek x).engine = s.engine := rfl
@[simp] theorem State.setPeek_clock (s : State) (x : PeekWindow) : (s.setPeek x).clock = s.clock := rfl
@[simp] theorem State.setPeek_attn (s : State) (x : PeekWindow) : (s.setPeek x).attn = s.attn := rfl
@[simp] theorem State.setPeek_lines (s : State) (x : PeekWindow) : (s.setPeek x).lines = s.lines := rfl
@[simp] theorem State.setPeek_lineEvents (s : State) (x : PeekWindow) : (s.setPeek x).lineEvents = s.lineEvents := rfl
@[simp] theorem State.setPeek_taps (s : State) (x : PeekWindow) : (s.setPeek x).taps = s.taps := rfl
@[simp] theorem State.setPeek_slots (s : State) (x : PeekWindow) : (s.setPeek x).slots = s.slots := rfl
@[simp] theorem State.setPeek_recency (s : State) (x : PeekWindow) : (s.setPeek x).recency = s.recency := rfl
@[simp] theorem State.setPeek_slotWait (s : State) (x : PeekWindow) : (s.setPeek x).slotWait = s.slotWait := rfl
@[simp] theorem State.setPeek_counts (s : State) (x : PeekWindow) : (s.setPeek x).counts = s.counts := rfl
@[simp] theorem State.setPeek_pool (s : State) (x : PeekWindow) : (s.setPeek x).pool = s.pool := rfl
@[simp] theorem State.setPeek_port (s : State) (x : PeekWindow) : (s.setPeek x).port = s.port := rfl
@[simp] theorem State.setPeek_tariff (s : State) (x : PeekWindow) : (s.setPeek x).tariff = s.tariff := rfl
@[simp] theorem State.setPeek_ranges (s : State) (x : PeekWindow) : (s.setPeek x).ranges = s.ranges := rfl
@[simp] theorem State.setPeek_lastWatch (s : State) (x : PeekWindow) : (s.setPeek x).lastWatch = s.lastWatch := rfl
@[simp] theorem State.setPeek_change (s : State) (x : PeekWindow) : (s.setPeek x).change = s.change := rfl
@[simp] theorem State.setPeek_urgent (s : State) (x : PeekWindow) : (s.setPeek x).urgent = s.urgent := rfl
@[simp] theorem State.setPeek_marks (s : State) (x : PeekWindow) : (s.setPeek x).marks = s.marks := rfl
@[simp] theorem State.setPeek_peek (s : State) (x : PeekWindow) : (s.setPeek x).peek = x := rfl
@[simp] theorem State.setPeek_copies (s : State) (x : PeekWindow) : (s.setPeek x).copies = s.copies := rfl
@[simp] theorem State.setPeek_slave (s : State) (x : PeekWindow) : (s.setPeek x).slave = s.slave := rfl
@[simp] theorem State.setPeek_hostMem (s : State) (x : PeekWindow) : (s.setPeek x).hostMem = s.hostMem := rfl
@[simp] theorem State.setPeek_freeIndex (s : State) (x : PeekWindow) : (s.setPeek x).freeIndex = s.freeIndex := rfl
@[simp] theorem State.setPeek_pending (s : State) (x : PeekWindow) : (s.setPeek x).pending = s.pending := rfl

@[simp] theorem State.setCopies_engine (s : State) (x : RegCopies) : (s.setCopies x).engine = s.engine := rfl
@[simp] theorem State.setCopies_clock (s : State) (x : RegCopies) : (s.setCopies x).clock = s.clock := rfl
@[simp] theorem State.setCopies_attn (s : State) (x : RegCopies) : (s.setCopies x).attn = s.attn := rfl
@[simp] theorem State.setCopies_lines (s : State) (x : RegCopies) : (s.setCopies x).lines = s.lines := rfl
@[simp] theorem State.setCopies_lineEvents (s : State) (x : RegCopies) : (s.setCopies x).lineEvents = s.lineEvents := rfl
@[simp] theorem State.setCopies_taps (s : State) (x : RegCopies) : (s.setCopies x).taps = s.taps := rfl
@[simp] theorem State.setCopies_slots (s : State) (x : RegCopies) : (s.setCopies x).slots = s.slots := rfl
@[simp] theorem State.setCopies_recency (s : State) (x : RegCopies) : (s.setCopies x).recency = s.recency := rfl
@[simp] theorem State.setCopies_slotWait (s : State) (x : RegCopies) : (s.setCopies x).slotWait = s.slotWait := rfl
@[simp] theorem State.setCopies_counts (s : State) (x : RegCopies) : (s.setCopies x).counts = s.counts := rfl
@[simp] theorem State.setCopies_pool (s : State) (x : RegCopies) : (s.setCopies x).pool = s.pool := rfl
@[simp] theorem State.setCopies_port (s : State) (x : RegCopies) : (s.setCopies x).port = s.port := rfl
@[simp] theorem State.setCopies_tariff (s : State) (x : RegCopies) : (s.setCopies x).tariff = s.tariff := rfl
@[simp] theorem State.setCopies_ranges (s : State) (x : RegCopies) : (s.setCopies x).ranges = s.ranges := rfl
@[simp] theorem State.setCopies_lastWatch (s : State) (x : RegCopies) : (s.setCopies x).lastWatch = s.lastWatch := rfl
@[simp] theorem State.setCopies_change (s : State) (x : RegCopies) : (s.setCopies x).change = s.change := rfl
@[simp] theorem State.setCopies_urgent (s : State) (x : RegCopies) : (s.setCopies x).urgent = s.urgent := rfl
@[simp] theorem State.setCopies_marks (s : State) (x : RegCopies) : (s.setCopies x).marks = s.marks := rfl
@[simp] theorem State.setCopies_peek (s : State) (x : RegCopies) : (s.setCopies x).peek = s.peek := rfl
@[simp] theorem State.setCopies_copies (s : State) (x : RegCopies) : (s.setCopies x).copies = x := rfl
@[simp] theorem State.setCopies_slave (s : State) (x : RegCopies) : (s.setCopies x).slave = s.slave := rfl
@[simp] theorem State.setCopies_hostMem (s : State) (x : RegCopies) : (s.setCopies x).hostMem = s.hostMem := rfl
@[simp] theorem State.setCopies_freeIndex (s : State) (x : RegCopies) : (s.setCopies x).freeIndex = s.freeIndex := rfl
@[simp] theorem State.setCopies_pending (s : State) (x : RegCopies) : (s.setCopies x).pending = s.pending := rfl

@[simp] theorem State.setSlave_engine (s : State) (x : Word) : (s.setSlave x).engine = s.engine := rfl
@[simp] theorem State.setSlave_clock (s : State) (x : Word) : (s.setSlave x).clock = s.clock := rfl
@[simp] theorem State.setSlave_attn (s : State) (x : Word) : (s.setSlave x).attn = s.attn := rfl
@[simp] theorem State.setSlave_lines (s : State) (x : Word) : (s.setSlave x).lines = s.lines := rfl
@[simp] theorem State.setSlave_lineEvents (s : State) (x : Word) : (s.setSlave x).lineEvents = s.lineEvents := rfl
@[simp] theorem State.setSlave_taps (s : State) (x : Word) : (s.setSlave x).taps = s.taps := rfl
@[simp] theorem State.setSlave_slots (s : State) (x : Word) : (s.setSlave x).slots = s.slots := rfl
@[simp] theorem State.setSlave_recency (s : State) (x : Word) : (s.setSlave x).recency = s.recency := rfl
@[simp] theorem State.setSlave_slotWait (s : State) (x : Word) : (s.setSlave x).slotWait = s.slotWait := rfl
@[simp] theorem State.setSlave_counts (s : State) (x : Word) : (s.setSlave x).counts = s.counts := rfl
@[simp] theorem State.setSlave_pool (s : State) (x : Word) : (s.setSlave x).pool = s.pool := rfl
@[simp] theorem State.setSlave_port (s : State) (x : Word) : (s.setSlave x).port = s.port := rfl
@[simp] theorem State.setSlave_tariff (s : State) (x : Word) : (s.setSlave x).tariff = s.tariff := rfl
@[simp] theorem State.setSlave_ranges (s : State) (x : Word) : (s.setSlave x).ranges = s.ranges := rfl
@[simp] theorem State.setSlave_lastWatch (s : State) (x : Word) : (s.setSlave x).lastWatch = s.lastWatch := rfl
@[simp] theorem State.setSlave_change (s : State) (x : Word) : (s.setSlave x).change = s.change := rfl
@[simp] theorem State.setSlave_urgent (s : State) (x : Word) : (s.setSlave x).urgent = s.urgent := rfl
@[simp] theorem State.setSlave_marks (s : State) (x : Word) : (s.setSlave x).marks = s.marks := rfl
@[simp] theorem State.setSlave_peek (s : State) (x : Word) : (s.setSlave x).peek = s.peek := rfl
@[simp] theorem State.setSlave_copies (s : State) (x : Word) : (s.setSlave x).copies = s.copies := rfl
@[simp] theorem State.setSlave_slave (s : State) (x : Word) : (s.setSlave x).slave = x := rfl
@[simp] theorem State.setSlave_hostMem (s : State) (x : Word) : (s.setSlave x).hostMem = s.hostMem := rfl
@[simp] theorem State.setSlave_freeIndex (s : State) (x : Word) : (s.setSlave x).freeIndex = s.freeIndex := rfl
@[simp] theorem State.setSlave_pending (s : State) (x : Word) : (s.setSlave x).pending = s.pending := rfl

@[simp] theorem State.setHostMem_engine (s : State) (x : Memory) : (s.setHostMem x).engine = s.engine := rfl
@[simp] theorem State.setHostMem_clock (s : State) (x : Memory) : (s.setHostMem x).clock = s.clock := rfl
@[simp] theorem State.setHostMem_attn (s : State) (x : Memory) : (s.setHostMem x).attn = s.attn := rfl
@[simp] theorem State.setHostMem_lines (s : State) (x : Memory) : (s.setHostMem x).lines = s.lines := rfl
@[simp] theorem State.setHostMem_lineEvents (s : State) (x : Memory) : (s.setHostMem x).lineEvents = s.lineEvents := rfl
@[simp] theorem State.setHostMem_taps (s : State) (x : Memory) : (s.setHostMem x).taps = s.taps := rfl
@[simp] theorem State.setHostMem_slots (s : State) (x : Memory) : (s.setHostMem x).slots = s.slots := rfl
@[simp] theorem State.setHostMem_recency (s : State) (x : Memory) : (s.setHostMem x).recency = s.recency := rfl
@[simp] theorem State.setHostMem_slotWait (s : State) (x : Memory) : (s.setHostMem x).slotWait = s.slotWait := rfl
@[simp] theorem State.setHostMem_counts (s : State) (x : Memory) : (s.setHostMem x).counts = s.counts := rfl
@[simp] theorem State.setHostMem_pool (s : State) (x : Memory) : (s.setHostMem x).pool = s.pool := rfl
@[simp] theorem State.setHostMem_port (s : State) (x : Memory) : (s.setHostMem x).port = s.port := rfl
@[simp] theorem State.setHostMem_tariff (s : State) (x : Memory) : (s.setHostMem x).tariff = s.tariff := rfl
@[simp] theorem State.setHostMem_ranges (s : State) (x : Memory) : (s.setHostMem x).ranges = s.ranges := rfl
@[simp] theorem State.setHostMem_lastWatch (s : State) (x : Memory) : (s.setHostMem x).lastWatch = s.lastWatch := rfl
@[simp] theorem State.setHostMem_change (s : State) (x : Memory) : (s.setHostMem x).change = s.change := rfl
@[simp] theorem State.setHostMem_urgent (s : State) (x : Memory) : (s.setHostMem x).urgent = s.urgent := rfl
@[simp] theorem State.setHostMem_marks (s : State) (x : Memory) : (s.setHostMem x).marks = s.marks := rfl
@[simp] theorem State.setHostMem_peek (s : State) (x : Memory) : (s.setHostMem x).peek = s.peek := rfl
@[simp] theorem State.setHostMem_copies (s : State) (x : Memory) : (s.setHostMem x).copies = s.copies := rfl
@[simp] theorem State.setHostMem_slave (s : State) (x : Memory) : (s.setHostMem x).slave = s.slave := rfl
@[simp] theorem State.setHostMem_hostMem (s : State) (x : Memory) : (s.setHostMem x).hostMem = x := rfl
@[simp] theorem State.setHostMem_freeIndex (s : State) (x : Memory) : (s.setHostMem x).freeIndex = s.freeIndex := rfl
@[simp] theorem State.setHostMem_pending (s : State) (x : Memory) : (s.setHostMem x).pending = s.pending := rfl

@[simp] theorem State.setFreeIndex_engine (s : State) (x : Nat) : (s.setFreeIndex x).engine = s.engine := rfl
@[simp] theorem State.setFreeIndex_clock (s : State) (x : Nat) : (s.setFreeIndex x).clock = s.clock := rfl
@[simp] theorem State.setFreeIndex_attn (s : State) (x : Nat) : (s.setFreeIndex x).attn = s.attn := rfl
@[simp] theorem State.setFreeIndex_lines (s : State) (x : Nat) : (s.setFreeIndex x).lines = s.lines := rfl
@[simp] theorem State.setFreeIndex_lineEvents (s : State) (x : Nat) : (s.setFreeIndex x).lineEvents = s.lineEvents := rfl
@[simp] theorem State.setFreeIndex_taps (s : State) (x : Nat) : (s.setFreeIndex x).taps = s.taps := rfl
@[simp] theorem State.setFreeIndex_slots (s : State) (x : Nat) : (s.setFreeIndex x).slots = s.slots := rfl
@[simp] theorem State.setFreeIndex_recency (s : State) (x : Nat) : (s.setFreeIndex x).recency = s.recency := rfl
@[simp] theorem State.setFreeIndex_slotWait (s : State) (x : Nat) : (s.setFreeIndex x).slotWait = s.slotWait := rfl
@[simp] theorem State.setFreeIndex_counts (s : State) (x : Nat) : (s.setFreeIndex x).counts = s.counts := rfl
@[simp] theorem State.setFreeIndex_pool (s : State) (x : Nat) : (s.setFreeIndex x).pool = s.pool := rfl
@[simp] theorem State.setFreeIndex_port (s : State) (x : Nat) : (s.setFreeIndex x).port = s.port := rfl
@[simp] theorem State.setFreeIndex_tariff (s : State) (x : Nat) : (s.setFreeIndex x).tariff = s.tariff := rfl
@[simp] theorem State.setFreeIndex_ranges (s : State) (x : Nat) : (s.setFreeIndex x).ranges = s.ranges := rfl
@[simp] theorem State.setFreeIndex_lastWatch (s : State) (x : Nat) : (s.setFreeIndex x).lastWatch = s.lastWatch := rfl
@[simp] theorem State.setFreeIndex_change (s : State) (x : Nat) : (s.setFreeIndex x).change = s.change := rfl
@[simp] theorem State.setFreeIndex_urgent (s : State) (x : Nat) : (s.setFreeIndex x).urgent = s.urgent := rfl
@[simp] theorem State.setFreeIndex_marks (s : State) (x : Nat) : (s.setFreeIndex x).marks = s.marks := rfl
@[simp] theorem State.setFreeIndex_peek (s : State) (x : Nat) : (s.setFreeIndex x).peek = s.peek := rfl
@[simp] theorem State.setFreeIndex_copies (s : State) (x : Nat) : (s.setFreeIndex x).copies = s.copies := rfl
@[simp] theorem State.setFreeIndex_slave (s : State) (x : Nat) : (s.setFreeIndex x).slave = s.slave := rfl
@[simp] theorem State.setFreeIndex_hostMem (s : State) (x : Nat) : (s.setFreeIndex x).hostMem = s.hostMem := rfl
@[simp] theorem State.setFreeIndex_freeIndex (s : State) (x : Nat) : (s.setFreeIndex x).freeIndex = x := rfl
@[simp] theorem State.setFreeIndex_pending (s : State) (x : Nat) : (s.setFreeIndex x).pending = s.pending := rfl

@[simp] theorem State.setSlot_engine (s : State) (i : SlotNo) (x : Slot) : (s.setSlot i x).engine = s.engine := rfl
@[simp] theorem State.setSlot_clock (s : State) (i : SlotNo) (x : Slot) : (s.setSlot i x).clock = s.clock := rfl
@[simp] theorem State.setSlot_attn (s : State) (i : SlotNo) (x : Slot) : (s.setSlot i x).attn = s.attn := rfl
@[simp] theorem State.setSlot_lines (s : State) (i : SlotNo) (x : Slot) : (s.setSlot i x).lines = s.lines := rfl
@[simp] theorem State.setSlot_lineEvents (s : State) (i : SlotNo) (x : Slot) : (s.setSlot i x).lineEvents = s.lineEvents := rfl
@[simp] theorem State.setSlot_taps (s : State) (i : SlotNo) (x : Slot) : (s.setSlot i x).taps = s.taps := rfl
@[simp] theorem State.setSlot_recency (s : State) (i : SlotNo) (x : Slot) : (s.setSlot i x).recency = s.recency := rfl
@[simp] theorem State.setSlot_slotWait (s : State) (i : SlotNo) (x : Slot) : (s.setSlot i x).slotWait = s.slotWait := rfl
@[simp] theorem State.setSlot_counts (s : State) (i : SlotNo) (x : Slot) : (s.setSlot i x).counts = s.counts := rfl
@[simp] theorem State.setSlot_pool (s : State) (i : SlotNo) (x : Slot) : (s.setSlot i x).pool = s.pool := rfl
@[simp] theorem State.setSlot_port (s : State) (i : SlotNo) (x : Slot) : (s.setSlot i x).port = s.port := rfl
@[simp] theorem State.setSlot_tariff (s : State) (i : SlotNo) (x : Slot) : (s.setSlot i x).tariff = s.tariff := rfl
@[simp] theorem State.setSlot_ranges (s : State) (i : SlotNo) (x : Slot) : (s.setSlot i x).ranges = s.ranges := rfl
@[simp] theorem State.setSlot_lastWatch (s : State) (i : SlotNo) (x : Slot) : (s.setSlot i x).lastWatch = s.lastWatch := rfl
@[simp] theorem State.setSlot_change (s : State) (i : SlotNo) (x : Slot) : (s.setSlot i x).change = s.change := rfl
@[simp] theorem State.setSlot_urgent (s : State) (i : SlotNo) (x : Slot) : (s.setSlot i x).urgent = s.urgent := rfl
@[simp] theorem State.setSlot_marks (s : State) (i : SlotNo) (x : Slot) : (s.setSlot i x).marks = s.marks := rfl
@[simp] theorem State.setSlot_peek (s : State) (i : SlotNo) (x : Slot) : (s.setSlot i x).peek = s.peek := rfl
@[simp] theorem State.setSlot_copies (s : State) (i : SlotNo) (x : Slot) : (s.setSlot i x).copies = s.copies := rfl
@[simp] theorem State.setSlot_slave (s : State) (i : SlotNo) (x : Slot) : (s.setSlot i x).slave = s.slave := rfl
@[simp] theorem State.setSlot_hostMem (s : State) (i : SlotNo) (x : Slot) : (s.setSlot i x).hostMem = s.hostMem := rfl
@[simp] theorem State.setSlot_freeIndex (s : State) (i : SlotNo) (x : Slot) : (s.setSlot i x).freeIndex = s.freeIndex := rfl
@[simp] theorem State.setSlot_pending (s : State) (i : SlotNo) (x : Slot) : (s.setSlot i x).pending = s.pending := rfl

@[simp] theorem State.modSlot_engine (s : State) (i : SlotNo) (f : Slot → Slot) : (s.modSlot i f).engine = s.engine := rfl
@[simp] theorem State.modSlot_clock (s : State) (i : SlotNo) (f : Slot → Slot) : (s.modSlot i f).clock = s.clock := rfl
@[simp] theorem State.modSlot_attn (s : State) (i : SlotNo) (f : Slot → Slot) : (s.modSlot i f).attn = s.attn := rfl
@[simp] theorem State.modSlot_lines (s : State) (i : SlotNo) (f : Slot → Slot) : (s.modSlot i f).lines = s.lines := rfl
@[simp] theorem State.modSlot_lineEvents (s : State) (i : SlotNo) (f : Slot → Slot) : (s.modSlot i f).lineEvents = s.lineEvents := rfl
@[simp] theorem State.modSlot_taps (s : State) (i : SlotNo) (f : Slot → Slot) : (s.modSlot i f).taps = s.taps := rfl
@[simp] theorem State.modSlot_recency (s : State) (i : SlotNo) (f : Slot → Slot) : (s.modSlot i f).recency = s.recency := rfl
@[simp] theorem State.modSlot_slotWait (s : State) (i : SlotNo) (f : Slot → Slot) : (s.modSlot i f).slotWait = s.slotWait := rfl
@[simp] theorem State.modSlot_counts (s : State) (i : SlotNo) (f : Slot → Slot) : (s.modSlot i f).counts = s.counts := rfl
@[simp] theorem State.modSlot_pool (s : State) (i : SlotNo) (f : Slot → Slot) : (s.modSlot i f).pool = s.pool := rfl
@[simp] theorem State.modSlot_port (s : State) (i : SlotNo) (f : Slot → Slot) : (s.modSlot i f).port = s.port := rfl
@[simp] theorem State.modSlot_tariff (s : State) (i : SlotNo) (f : Slot → Slot) : (s.modSlot i f).tariff = s.tariff := rfl
@[simp] theorem State.modSlot_ranges (s : State) (i : SlotNo) (f : Slot → Slot) : (s.modSlot i f).ranges = s.ranges := rfl
@[simp] theorem State.modSlot_lastWatch (s : State) (i : SlotNo) (f : Slot → Slot) : (s.modSlot i f).lastWatch = s.lastWatch := rfl
@[simp] theorem State.modSlot_change (s : State) (i : SlotNo) (f : Slot → Slot) : (s.modSlot i f).change = s.change := rfl
@[simp] theorem State.modSlot_urgent (s : State) (i : SlotNo) (f : Slot → Slot) : (s.modSlot i f).urgent = s.urgent := rfl
@[simp] theorem State.modSlot_marks (s : State) (i : SlotNo) (f : Slot → Slot) : (s.modSlot i f).marks = s.marks := rfl
@[simp] theorem State.modSlot_peek (s : State) (i : SlotNo) (f : Slot → Slot) : (s.modSlot i f).peek = s.peek := rfl
@[simp] theorem State.modSlot_copies (s : State) (i : SlotNo) (f : Slot → Slot) : (s.modSlot i f).copies = s.copies := rfl
@[simp] theorem State.modSlot_slave (s : State) (i : SlotNo) (f : Slot → Slot) : (s.modSlot i f).slave = s.slave := rfl
@[simp] theorem State.modSlot_hostMem (s : State) (i : SlotNo) (f : Slot → Slot) : (s.modSlot i f).hostMem = s.hostMem := rfl
@[simp] theorem State.modSlot_freeIndex (s : State) (i : SlotNo) (f : Slot → Slot) : (s.modSlot i f).freeIndex = s.freeIndex := rfl
@[simp] theorem State.modSlot_pending (s : State) (i : SlotNo) (f : Slot → Slot) : (s.modSlot i f).pending = s.pending := rfl

@[simp] theorem State.modLine_engine (s : State) (n : LineNo) (f : Line → Line) : (s.modLine n f).engine = s.engine := rfl
@[simp] theorem State.modLine_clock (s : State) (n : LineNo) (f : Line → Line) : (s.modLine n f).clock = s.clock := rfl
@[simp] theorem State.modLine_attn (s : State) (n : LineNo) (f : Line → Line) : (s.modLine n f).attn = s.attn := rfl
@[simp] theorem State.modLine_lineEvents (s : State) (n : LineNo) (f : Line → Line) : (s.modLine n f).lineEvents = s.lineEvents := rfl
@[simp] theorem State.modLine_taps (s : State) (n : LineNo) (f : Line → Line) : (s.modLine n f).taps = s.taps := rfl
@[simp] theorem State.modLine_slots (s : State) (n : LineNo) (f : Line → Line) : (s.modLine n f).slots = s.slots := rfl
@[simp] theorem State.modLine_recency (s : State) (n : LineNo) (f : Line → Line) : (s.modLine n f).recency = s.recency := rfl
@[simp] theorem State.modLine_slotWait (s : State) (n : LineNo) (f : Line → Line) : (s.modLine n f).slotWait = s.slotWait := rfl
@[simp] theorem State.modLine_counts (s : State) (n : LineNo) (f : Line → Line) : (s.modLine n f).counts = s.counts := rfl
@[simp] theorem State.modLine_pool (s : State) (n : LineNo) (f : Line → Line) : (s.modLine n f).pool = s.pool := rfl
@[simp] theorem State.modLine_port (s : State) (n : LineNo) (f : Line → Line) : (s.modLine n f).port = s.port := rfl
@[simp] theorem State.modLine_tariff (s : State) (n : LineNo) (f : Line → Line) : (s.modLine n f).tariff = s.tariff := rfl
@[simp] theorem State.modLine_ranges (s : State) (n : LineNo) (f : Line → Line) : (s.modLine n f).ranges = s.ranges := rfl
@[simp] theorem State.modLine_lastWatch (s : State) (n : LineNo) (f : Line → Line) : (s.modLine n f).lastWatch = s.lastWatch := rfl
@[simp] theorem State.modLine_change (s : State) (n : LineNo) (f : Line → Line) : (s.modLine n f).change = s.change := rfl
@[simp] theorem State.modLine_urgent (s : State) (n : LineNo) (f : Line → Line) : (s.modLine n f).urgent = s.urgent := rfl
@[simp] theorem State.modLine_marks (s : State) (n : LineNo) (f : Line → Line) : (s.modLine n f).marks = s.marks := rfl
@[simp] theorem State.modLine_peek (s : State) (n : LineNo) (f : Line → Line) : (s.modLine n f).peek = s.peek := rfl
@[simp] theorem State.modLine_copies (s : State) (n : LineNo) (f : Line → Line) : (s.modLine n f).copies = s.copies := rfl
@[simp] theorem State.modLine_slave (s : State) (n : LineNo) (f : Line → Line) : (s.modLine n f).slave = s.slave := rfl
@[simp] theorem State.modLine_hostMem (s : State) (n : LineNo) (f : Line → Line) : (s.modLine n f).hostMem = s.hostMem := rfl
@[simp] theorem State.modLine_freeIndex (s : State) (n : LineNo) (f : Line → Line) : (s.modLine n f).freeIndex = s.freeIndex := rfl
@[simp] theorem State.modLine_pending (s : State) (n : LineNo) (f : Line → Line) : (s.modLine n f).pending = s.pending := rfl

@[simp] theorem State.setCtx_engine (s : State) (c : CtxNo) (x : Option TapContext) : (s.setCtx c x).engine = s.engine := rfl
@[simp] theorem State.setCtx_clock (s : State) (c : CtxNo) (x : Option TapContext) : (s.setCtx c x).clock = s.clock := rfl
@[simp] theorem State.setCtx_attn (s : State) (c : CtxNo) (x : Option TapContext) : (s.setCtx c x).attn = s.attn := rfl
@[simp] theorem State.setCtx_lines (s : State) (c : CtxNo) (x : Option TapContext) : (s.setCtx c x).lines = s.lines := rfl
@[simp] theorem State.setCtx_lineEvents (s : State) (c : CtxNo) (x : Option TapContext) : (s.setCtx c x).lineEvents = s.lineEvents := rfl
@[simp] theorem State.setCtx_slots (s : State) (c : CtxNo) (x : Option TapContext) : (s.setCtx c x).slots = s.slots := rfl
@[simp] theorem State.setCtx_recency (s : State) (c : CtxNo) (x : Option TapContext) : (s.setCtx c x).recency = s.recency := rfl
@[simp] theorem State.setCtx_slotWait (s : State) (c : CtxNo) (x : Option TapContext) : (s.setCtx c x).slotWait = s.slotWait := rfl
@[simp] theorem State.setCtx_counts (s : State) (c : CtxNo) (x : Option TapContext) : (s.setCtx c x).counts = s.counts := rfl
@[simp] theorem State.setCtx_pool (s : State) (c : CtxNo) (x : Option TapContext) : (s.setCtx c x).pool = s.pool := rfl
@[simp] theorem State.setCtx_port (s : State) (c : CtxNo) (x : Option TapContext) : (s.setCtx c x).port = s.port := rfl
@[simp] theorem State.setCtx_tariff (s : State) (c : CtxNo) (x : Option TapContext) : (s.setCtx c x).tariff = s.tariff := rfl
@[simp] theorem State.setCtx_ranges (s : State) (c : CtxNo) (x : Option TapContext) : (s.setCtx c x).ranges = s.ranges := rfl
@[simp] theorem State.setCtx_lastWatch (s : State) (c : CtxNo) (x : Option TapContext) : (s.setCtx c x).lastWatch = s.lastWatch := rfl
@[simp] theorem State.setCtx_change (s : State) (c : CtxNo) (x : Option TapContext) : (s.setCtx c x).change = s.change := rfl
@[simp] theorem State.setCtx_urgent (s : State) (c : CtxNo) (x : Option TapContext) : (s.setCtx c x).urgent = s.urgent := rfl
@[simp] theorem State.setCtx_marks (s : State) (c : CtxNo) (x : Option TapContext) : (s.setCtx c x).marks = s.marks := rfl
@[simp] theorem State.setCtx_peek (s : State) (c : CtxNo) (x : Option TapContext) : (s.setCtx c x).peek = s.peek := rfl
@[simp] theorem State.setCtx_copies (s : State) (c : CtxNo) (x : Option TapContext) : (s.setCtx c x).copies = s.copies := rfl
@[simp] theorem State.setCtx_slave (s : State) (c : CtxNo) (x : Option TapContext) : (s.setCtx c x).slave = s.slave := rfl
@[simp] theorem State.setCtx_hostMem (s : State) (c : CtxNo) (x : Option TapContext) : (s.setCtx c x).hostMem = s.hostMem := rfl
@[simp] theorem State.setCtx_freeIndex (s : State) (c : CtxNo) (x : Option TapContext) : (s.setCtx c x).freeIndex = s.freeIndex := rfl
@[simp] theorem State.setCtx_pending (s : State) (c : CtxNo) (x : Option TapContext) : (s.setCtx c x).pending = s.pending := rfl

@[simp] theorem State.modChange_engine (s : State) (f : ChangeUnit → ChangeUnit) : (s.modChange f).engine = s.engine := rfl
@[simp] theorem State.modChange_clock (s : State) (f : ChangeUnit → ChangeUnit) : (s.modChange f).clock = s.clock := rfl
@[simp] theorem State.modChange_attn (s : State) (f : ChangeUnit → ChangeUnit) : (s.modChange f).attn = s.attn := rfl
@[simp] theorem State.modChange_lines (s : State) (f : ChangeUnit → ChangeUnit) : (s.modChange f).lines = s.lines := rfl
@[simp] theorem State.modChange_lineEvents (s : State) (f : ChangeUnit → ChangeUnit) : (s.modChange f).lineEvents = s.lineEvents := rfl
@[simp] theorem State.modChange_taps (s : State) (f : ChangeUnit → ChangeUnit) : (s.modChange f).taps = s.taps := rfl
@[simp] theorem State.modChange_slots (s : State) (f : ChangeUnit → ChangeUnit) : (s.modChange f).slots = s.slots := rfl
@[simp] theorem State.modChange_recency (s : State) (f : ChangeUnit → ChangeUnit) : (s.modChange f).recency = s.recency := rfl
@[simp] theorem State.modChange_slotWait (s : State) (f : ChangeUnit → ChangeUnit) : (s.modChange f).slotWait = s.slotWait := rfl
@[simp] theorem State.modChange_counts (s : State) (f : ChangeUnit → ChangeUnit) : (s.modChange f).counts = s.counts := rfl
@[simp] theorem State.modChange_pool (s : State) (f : ChangeUnit → ChangeUnit) : (s.modChange f).pool = s.pool := rfl
@[simp] theorem State.modChange_port (s : State) (f : ChangeUnit → ChangeUnit) : (s.modChange f).port = s.port := rfl
@[simp] theorem State.modChange_tariff (s : State) (f : ChangeUnit → ChangeUnit) : (s.modChange f).tariff = s.tariff := rfl
@[simp] theorem State.modChange_ranges (s : State) (f : ChangeUnit → ChangeUnit) : (s.modChange f).ranges = s.ranges := rfl
@[simp] theorem State.modChange_lastWatch (s : State) (f : ChangeUnit → ChangeUnit) : (s.modChange f).lastWatch = s.lastWatch := rfl
@[simp] theorem State.modChange_change (s : State) (f : ChangeUnit → ChangeUnit) : (s.modChange f).change = f s.change := rfl
@[simp] theorem State.modChange_urgent (s : State) (f : ChangeUnit → ChangeUnit) : (s.modChange f).urgent = s.urgent := rfl
@[simp] theorem State.modChange_marks (s : State) (f : ChangeUnit → ChangeUnit) : (s.modChange f).marks = s.marks := rfl
@[simp] theorem State.modChange_peek (s : State) (f : ChangeUnit → ChangeUnit) : (s.modChange f).peek = s.peek := rfl
@[simp] theorem State.modChange_copies (s : State) (f : ChangeUnit → ChangeUnit) : (s.modChange f).copies = s.copies := rfl
@[simp] theorem State.modChange_slave (s : State) (f : ChangeUnit → ChangeUnit) : (s.modChange f).slave = s.slave := rfl
@[simp] theorem State.modChange_hostMem (s : State) (f : ChangeUnit → ChangeUnit) : (s.modChange f).hostMem = s.hostMem := rfl
@[simp] theorem State.modChange_freeIndex (s : State) (f : ChangeUnit → ChangeUnit) : (s.modChange f).freeIndex = s.freeIndex := rfl
@[simp] theorem State.modChange_pending (s : State) (f : ChangeUnit → ChangeUnit) : (s.modChange f).pending = s.pending := rfl

@[simp] theorem State.modUrgent_engine (s : State) (f : Urgent → Urgent) : (s.modUrgent f).engine = s.engine := rfl
@[simp] theorem State.modUrgent_clock (s : State) (f : Urgent → Urgent) : (s.modUrgent f).clock = s.clock := rfl
@[simp] theorem State.modUrgent_attn (s : State) (f : Urgent → Urgent) : (s.modUrgent f).attn = s.attn := rfl
@[simp] theorem State.modUrgent_lines (s : State) (f : Urgent → Urgent) : (s.modUrgent f).lines = s.lines := rfl
@[simp] theorem State.modUrgent_lineEvents (s : State) (f : Urgent → Urgent) : (s.modUrgent f).lineEvents = s.lineEvents := rfl
@[simp] theorem State.modUrgent_taps (s : State) (f : Urgent → Urgent) : (s.modUrgent f).taps = s.taps := rfl
@[simp] theorem State.modUrgent_slots (s : State) (f : Urgent → Urgent) : (s.modUrgent f).slots = s.slots := rfl
@[simp] theorem State.modUrgent_recency (s : State) (f : Urgent → Urgent) : (s.modUrgent f).recency = s.recency := rfl
@[simp] theorem State.modUrgent_slotWait (s : State) (f : Urgent → Urgent) : (s.modUrgent f).slotWait = s.slotWait := rfl
@[simp] theorem State.modUrgent_counts (s : State) (f : Urgent → Urgent) : (s.modUrgent f).counts = s.counts := rfl
@[simp] theorem State.modUrgent_pool (s : State) (f : Urgent → Urgent) : (s.modUrgent f).pool = s.pool := rfl
@[simp] theorem State.modUrgent_port (s : State) (f : Urgent → Urgent) : (s.modUrgent f).port = s.port := rfl
@[simp] theorem State.modUrgent_tariff (s : State) (f : Urgent → Urgent) : (s.modUrgent f).tariff = s.tariff := rfl
@[simp] theorem State.modUrgent_ranges (s : State) (f : Urgent → Urgent) : (s.modUrgent f).ranges = s.ranges := rfl
@[simp] theorem State.modUrgent_lastWatch (s : State) (f : Urgent → Urgent) : (s.modUrgent f).lastWatch = s.lastWatch := rfl
@[simp] theorem State.modUrgent_change (s : State) (f : Urgent → Urgent) : (s.modUrgent f).change = s.change := rfl
@[simp] theorem State.modUrgent_urgent (s : State) (f : Urgent → Urgent) : (s.modUrgent f).urgent = f s.urgent := rfl
@[simp] theorem State.modUrgent_marks (s : State) (f : Urgent → Urgent) : (s.modUrgent f).marks = s.marks := rfl
@[simp] theorem State.modUrgent_peek (s : State) (f : Urgent → Urgent) : (s.modUrgent f).peek = s.peek := rfl
@[simp] theorem State.modUrgent_copies (s : State) (f : Urgent → Urgent) : (s.modUrgent f).copies = s.copies := rfl
@[simp] theorem State.modUrgent_slave (s : State) (f : Urgent → Urgent) : (s.modUrgent f).slave = s.slave := rfl
@[simp] theorem State.modUrgent_hostMem (s : State) (f : Urgent → Urgent) : (s.modUrgent f).hostMem = s.hostMem := rfl
@[simp] theorem State.modUrgent_freeIndex (s : State) (f : Urgent → Urgent) : (s.modUrgent f).freeIndex = s.freeIndex := rfl
@[simp] theorem State.modUrgent_pending (s : State) (f : Urgent → Urgent) : (s.modUrgent f).pending = s.pending := rfl

@[simp] theorem State.modPort_engine (s : State) (f : Port → Port) : (s.modPort f).engine = s.engine := rfl
@[simp] theorem State.modPort_clock (s : State) (f : Port → Port) : (s.modPort f).clock = s.clock := rfl
@[simp] theorem State.modPort_attn (s : State) (f : Port → Port) : (s.modPort f).attn = s.attn := rfl
@[simp] theorem State.modPort_lines (s : State) (f : Port → Port) : (s.modPort f).lines = s.lines := rfl
@[simp] theorem State.modPort_lineEvents (s : State) (f : Port → Port) : (s.modPort f).lineEvents = s.lineEvents := rfl
@[simp] theorem State.modPort_taps (s : State) (f : Port → Port) : (s.modPort f).taps = s.taps := rfl
@[simp] theorem State.modPort_slots (s : State) (f : Port → Port) : (s.modPort f).slots = s.slots := rfl
@[simp] theorem State.modPort_recency (s : State) (f : Port → Port) : (s.modPort f).recency = s.recency := rfl
@[simp] theorem State.modPort_slotWait (s : State) (f : Port → Port) : (s.modPort f).slotWait = s.slotWait := rfl
@[simp] theorem State.modPort_counts (s : State) (f : Port → Port) : (s.modPort f).counts = s.counts := rfl
@[simp] theorem State.modPort_pool (s : State) (f : Port → Port) : (s.modPort f).pool = s.pool := rfl
@[simp] theorem State.modPort_port (s : State) (f : Port → Port) : (s.modPort f).port = f s.port := rfl
@[simp] theorem State.modPort_tariff (s : State) (f : Port → Port) : (s.modPort f).tariff = s.tariff := rfl
@[simp] theorem State.modPort_ranges (s : State) (f : Port → Port) : (s.modPort f).ranges = s.ranges := rfl
@[simp] theorem State.modPort_lastWatch (s : State) (f : Port → Port) : (s.modPort f).lastWatch = s.lastWatch := rfl
@[simp] theorem State.modPort_change (s : State) (f : Port → Port) : (s.modPort f).change = s.change := rfl
@[simp] theorem State.modPort_urgent (s : State) (f : Port → Port) : (s.modPort f).urgent = s.urgent := rfl
@[simp] theorem State.modPort_marks (s : State) (f : Port → Port) : (s.modPort f).marks = s.marks := rfl
@[simp] theorem State.modPort_peek (s : State) (f : Port → Port) : (s.modPort f).peek = s.peek := rfl
@[simp] theorem State.modPort_copies (s : State) (f : Port → Port) : (s.modPort f).copies = s.copies := rfl
@[simp] theorem State.modPort_slave (s : State) (f : Port → Port) : (s.modPort f).slave = s.slave := rfl
@[simp] theorem State.modPort_hostMem (s : State) (f : Port → Port) : (s.modPort f).hostMem = s.hostMem := rfl
@[simp] theorem State.modPort_freeIndex (s : State) (f : Port → Port) : (s.modPort f).freeIndex = s.freeIndex := rfl
@[simp] theorem State.modPort_pending (s : State) (f : Port → Port) : (s.modPort f).pending = s.pending := rfl

@[simp] theorem State.modCounts_engine (s : State) (f : CacheCounts → CacheCounts) : (s.modCounts f).engine = s.engine := rfl
@[simp] theorem State.modCounts_clock (s : State) (f : CacheCounts → CacheCounts) : (s.modCounts f).clock = s.clock := rfl
@[simp] theorem State.modCounts_attn (s : State) (f : CacheCounts → CacheCounts) : (s.modCounts f).attn = s.attn := rfl
@[simp] theorem State.modCounts_lines (s : State) (f : CacheCounts → CacheCounts) : (s.modCounts f).lines = s.lines := rfl
@[simp] theorem State.modCounts_lineEvents (s : State) (f : CacheCounts → CacheCounts) : (s.modCounts f).lineEvents = s.lineEvents := rfl
@[simp] theorem State.modCounts_taps (s : State) (f : CacheCounts → CacheCounts) : (s.modCounts f).taps = s.taps := rfl
@[simp] theorem State.modCounts_slots (s : State) (f : CacheCounts → CacheCounts) : (s.modCounts f).slots = s.slots := rfl
@[simp] theorem State.modCounts_recency (s : State) (f : CacheCounts → CacheCounts) : (s.modCounts f).recency = s.recency := rfl
@[simp] theorem State.modCounts_slotWait (s : State) (f : CacheCounts → CacheCounts) : (s.modCounts f).slotWait = s.slotWait := rfl
@[simp] theorem State.modCounts_counts (s : State) (f : CacheCounts → CacheCounts) : (s.modCounts f).counts = f s.counts := rfl
@[simp] theorem State.modCounts_pool (s : State) (f : CacheCounts → CacheCounts) : (s.modCounts f).pool = s.pool := rfl
@[simp] theorem State.modCounts_port (s : State) (f : CacheCounts → CacheCounts) : (s.modCounts f).port = s.port := rfl
@[simp] theorem State.modCounts_tariff (s : State) (f : CacheCounts → CacheCounts) : (s.modCounts f).tariff = s.tariff := rfl
@[simp] theorem State.modCounts_ranges (s : State) (f : CacheCounts → CacheCounts) : (s.modCounts f).ranges = s.ranges := rfl
@[simp] theorem State.modCounts_lastWatch (s : State) (f : CacheCounts → CacheCounts) : (s.modCounts f).lastWatch = s.lastWatch := rfl
@[simp] theorem State.modCounts_change (s : State) (f : CacheCounts → CacheCounts) : (s.modCounts f).change = s.change := rfl
@[simp] theorem State.modCounts_urgent (s : State) (f : CacheCounts → CacheCounts) : (s.modCounts f).urgent = s.urgent := rfl
@[simp] theorem State.modCounts_marks (s : State) (f : CacheCounts → CacheCounts) : (s.modCounts f).marks = s.marks := rfl
@[simp] theorem State.modCounts_peek (s : State) (f : CacheCounts → CacheCounts) : (s.modCounts f).peek = s.peek := rfl
@[simp] theorem State.modCounts_copies (s : State) (f : CacheCounts → CacheCounts) : (s.modCounts f).copies = s.copies := rfl
@[simp] theorem State.modCounts_slave (s : State) (f : CacheCounts → CacheCounts) : (s.modCounts f).slave = s.slave := rfl
@[simp] theorem State.modCounts_hostMem (s : State) (f : CacheCounts → CacheCounts) : (s.modCounts f).hostMem = s.hostMem := rfl
@[simp] theorem State.modCounts_freeIndex (s : State) (f : CacheCounts → CacheCounts) : (s.modCounts f).freeIndex = s.freeIndex := rfl
@[simp] theorem State.modCounts_pending (s : State) (f : CacheCounts → CacheCounts) : (s.modCounts f).pending = s.pending := rfl

@[simp] theorem State.setEngine_slot (s : State) (x : Engine) (i : SlotNo) : (s.setEngine x).slot i = s.slot i := rfl
@[simp] theorem State.setEngine_line (s : State) (x : Engine) (n : LineNo) : (s.setEngine x).line n = s.line n := rfl
@[simp] theorem State.setEngine_ctx (s : State) (x : Engine) (c : CtxNo) : (s.setEngine x).ctx c = s.ctx c := rfl
@[simp] theorem State.setClock_slot (s : State) (x : Clock) (i : SlotNo) : (s.setClock x).slot i = s.slot i := rfl
@[simp] theorem State.setClock_line (s : State) (x : Clock) (n : LineNo) : (s.setClock x).line n = s.line n := rfl
@[simp] theorem State.setClock_ctx (s : State) (x : Clock) (c : CtxNo) : (s.setClock x).ctx c = s.ctx c := rfl
@[simp] theorem State.setClock_isOpen (s : State) (x : Clock) : (s.setClock x).isOpen = s.isOpen := rfl
@[simp] theorem State.setAttn_slot (s : State) (x : Attention) (i : SlotNo) : (s.setAttn x).slot i = s.slot i := rfl
@[simp] theorem State.setAttn_line (s : State) (x : Attention) (n : LineNo) : (s.setAttn x).line n = s.line n := rfl
@[simp] theorem State.setAttn_ctx (s : State) (x : Attention) (c : CtxNo) : (s.setAttn x).ctx c = s.ctx c := rfl
@[simp] theorem State.setAttn_isOpen (s : State) (x : Attention) : (s.setAttn x).isOpen = s.isOpen := rfl
@[simp] theorem State.setLines_slot (s : State) (x : Vector Line 16) (i : SlotNo) : (s.setLines x).slot i = s.slot i := rfl
@[simp] theorem State.setLines_ctx (s : State) (x : Vector Line 16) (c : CtxNo) : (s.setLines x).ctx c = s.ctx c := rfl
@[simp] theorem State.setLines_isOpen (s : State) (x : Vector Line 16) : (s.setLines x).isOpen = s.isOpen := rfl
@[simp] theorem State.setLineEvents_slot (s : State) (x : BitVec 16) (i : SlotNo) : (s.setLineEvents x).slot i = s.slot i := rfl
@[simp] theorem State.setLineEvents_line (s : State) (x : BitVec 16) (n : LineNo) : (s.setLineEvents x).line n = s.line n := rfl
@[simp] theorem State.setLineEvents_ctx (s : State) (x : BitVec 16) (c : CtxNo) : (s.setLineEvents x).ctx c = s.ctx c := rfl
@[simp] theorem State.setLineEvents_isOpen (s : State) (x : BitVec 16) : (s.setLineEvents x).isOpen = s.isOpen := rfl
@[simp] theorem State.setTaps_slot (s : State) (x : Vector (Option TapContext) 12) (i : SlotNo) : (s.setTaps x).slot i = s.slot i := rfl
@[simp] theorem State.setTaps_line (s : State) (x : Vector (Option TapContext) 12) (n : LineNo) : (s.setTaps x).line n = s.line n := rfl
@[simp] theorem State.setTaps_isOpen (s : State) (x : Vector (Option TapContext) 12) : (s.setTaps x).isOpen = s.isOpen := rfl
@[simp] theorem State.setSlots_line (s : State) (x : Vector Slot 256) (n : LineNo) : (s.setSlots x).line n = s.line n := rfl
@[simp] theorem State.setSlots_ctx (s : State) (x : Vector Slot 256) (c : CtxNo) : (s.setSlots x).ctx c = s.ctx c := rfl
@[simp] theorem State.setSlots_isOpen (s : State) (x : Vector Slot 256) : (s.setSlots x).isOpen = s.isOpen := rfl
@[simp] theorem State.setRecency_slot (s : State) (x : List SlotNo) (i : SlotNo) : (s.setRecency x).slot i = s.slot i := rfl
@[simp] theorem State.setRecency_line (s : State) (x : List SlotNo) (n : LineNo) : (s.setRecency x).line n = s.line n := rfl
@[simp] theorem State.setRecency_ctx (s : State) (x : List SlotNo) (c : CtxNo) : (s.setRecency x).ctx c = s.ctx c := rfl
@[simp] theorem State.setRecency_isOpen (s : State) (x : List SlotNo) : (s.setRecency x).isOpen = s.isOpen := rfl
@[simp] theorem State.setSlotWait_slot (s : State) (x : List Waiter) (i : SlotNo) : (s.setSlotWait x).slot i = s.slot i := rfl
@[simp] theorem State.setSlotWait_line (s : State) (x : List Waiter) (n : LineNo) : (s.setSlotWait x).line n = s.line n := rfl
@[simp] theorem State.setSlotWait_ctx (s : State) (x : List Waiter) (c : CtxNo) : (s.setSlotWait x).ctx c = s.ctx c := rfl
@[simp] theorem State.setSlotWait_isOpen (s : State) (x : List Waiter) : (s.setSlotWait x).isOpen = s.isOpen := rfl
@[simp] theorem State.setCounts_slot (s : State) (x : CacheCounts) (i : SlotNo) : (s.setCounts x).slot i = s.slot i := rfl
@[simp] theorem State.setCounts_line (s : State) (x : CacheCounts) (n : LineNo) : (s.setCounts x).line n = s.line n := rfl
@[simp] theorem State.setCounts_ctx (s : State) (x : CacheCounts) (c : CtxNo) : (s.setCounts x).ctx c = s.ctx c := rfl
@[simp] theorem State.setCounts_isOpen (s : State) (x : CacheCounts) : (s.setCounts x).isOpen = s.isOpen := rfl
@[simp] theorem State.setPool_slot (s : State) (x : CellPool) (i : SlotNo) : (s.setPool x).slot i = s.slot i := rfl
@[simp] theorem State.setPool_line (s : State) (x : CellPool) (n : LineNo) : (s.setPool x).line n = s.line n := rfl
@[simp] theorem State.setPool_ctx (s : State) (x : CellPool) (c : CtxNo) : (s.setPool x).ctx c = s.ctx c := rfl
@[simp] theorem State.setPool_isOpen (s : State) (x : CellPool) : (s.setPool x).isOpen = s.isOpen := rfl
@[simp] theorem State.setPort_slot (s : State) (x : Port) (i : SlotNo) : (s.setPort x).slot i = s.slot i := rfl
@[simp] theorem State.setPort_line (s : State) (x : Port) (n : LineNo) : (s.setPort x).line n = s.line n := rfl
@[simp] theorem State.setPort_ctx (s : State) (x : Port) (c : CtxNo) : (s.setPort x).ctx c = s.ctx c := rfl
@[simp] theorem State.setPort_isOpen (s : State) (x : Port) : (s.setPort x).isOpen = s.isOpen := rfl
@[simp] theorem State.setTariff_slot (s : State) (x : Tariff) (i : SlotNo) : (s.setTariff x).slot i = s.slot i := rfl
@[simp] theorem State.setTariff_line (s : State) (x : Tariff) (n : LineNo) : (s.setTariff x).line n = s.line n := rfl
@[simp] theorem State.setTariff_ctx (s : State) (x : Tariff) (c : CtxNo) : (s.setTariff x).ctx c = s.ctx c := rfl
@[simp] theorem State.setTariff_isOpen (s : State) (x : Tariff) : (s.setTariff x).isOpen = s.isOpen := rfl
@[simp] theorem State.setRanges_slot (s : State) (x : Vector RangeRule 16) (i : SlotNo) : (s.setRanges x).slot i = s.slot i := rfl
@[simp] theorem State.setRanges_line (s : State) (x : Vector RangeRule 16) (n : LineNo) : (s.setRanges x).line n = s.line n := rfl
@[simp] theorem State.setRanges_ctx (s : State) (x : Vector RangeRule 16) (c : CtxNo) : (s.setRanges x).ctx c = s.ctx c := rfl
@[simp] theorem State.setRanges_isOpen (s : State) (x : Vector RangeRule 16) : (s.setRanges x).isOpen = s.isOpen := rfl
@[simp] theorem State.setLastWatch_slot (s : State) (x : LastWatch) (i : SlotNo) : (s.setLastWatch x).slot i = s.slot i := rfl
@[simp] theorem State.setLastWatch_line (s : State) (x : LastWatch) (n : LineNo) : (s.setLastWatch x).line n = s.line n := rfl
@[simp] theorem State.setLastWatch_ctx (s : State) (x : LastWatch) (c : CtxNo) : (s.setLastWatch x).ctx c = s.ctx c := rfl
@[simp] theorem State.setLastWatch_isOpen (s : State) (x : LastWatch) : (s.setLastWatch x).isOpen = s.isOpen := rfl
@[simp] theorem State.setChange_slot (s : State) (x : ChangeUnit) (i : SlotNo) : (s.setChange x).slot i = s.slot i := rfl
@[simp] theorem State.setChange_line (s : State) (x : ChangeUnit) (n : LineNo) : (s.setChange x).line n = s.line n := rfl
@[simp] theorem State.setChange_ctx (s : State) (x : ChangeUnit) (c : CtxNo) : (s.setChange x).ctx c = s.ctx c := rfl
@[simp] theorem State.setChange_isOpen (s : State) (x : ChangeUnit) : (s.setChange x).isOpen = s.isOpen := rfl
@[simp] theorem State.setUrgent_slot (s : State) (x : Urgent) (i : SlotNo) : (s.setUrgent x).slot i = s.slot i := rfl
@[simp] theorem State.setUrgent_line (s : State) (x : Urgent) (n : LineNo) : (s.setUrgent x).line n = s.line n := rfl
@[simp] theorem State.setUrgent_ctx (s : State) (x : Urgent) (c : CtxNo) : (s.setUrgent x).ctx c = s.ctx c := rfl
@[simp] theorem State.setUrgent_isOpen (s : State) (x : Urgent) : (s.setUrgent x).isOpen = s.isOpen := rfl
@[simp] theorem State.setMarks_slot (s : State) (x : Vector (Option Ident) 16) (i : SlotNo) : (s.setMarks x).slot i = s.slot i := rfl
@[simp] theorem State.setMarks_line (s : State) (x : Vector (Option Ident) 16) (n : LineNo) : (s.setMarks x).line n = s.line n := rfl
@[simp] theorem State.setMarks_ctx (s : State) (x : Vector (Option Ident) 16) (c : CtxNo) : (s.setMarks x).ctx c = s.ctx c := rfl
@[simp] theorem State.setMarks_isOpen (s : State) (x : Vector (Option Ident) 16) : (s.setMarks x).isOpen = s.isOpen := rfl
@[simp] theorem State.setPeek_slot (s : State) (x : PeekWindow) (i : SlotNo) : (s.setPeek x).slot i = s.slot i := rfl
@[simp] theorem State.setPeek_line (s : State) (x : PeekWindow) (n : LineNo) : (s.setPeek x).line n = s.line n := rfl
@[simp] theorem State.setPeek_ctx (s : State) (x : PeekWindow) (c : CtxNo) : (s.setPeek x).ctx c = s.ctx c := rfl
@[simp] theorem State.setPeek_isOpen (s : State) (x : PeekWindow) : (s.setPeek x).isOpen = s.isOpen := rfl
@[simp] theorem State.setCopies_slot (s : State) (x : RegCopies) (i : SlotNo) : (s.setCopies x).slot i = s.slot i := rfl
@[simp] theorem State.setCopies_line (s : State) (x : RegCopies) (n : LineNo) : (s.setCopies x).line n = s.line n := rfl
@[simp] theorem State.setCopies_ctx (s : State) (x : RegCopies) (c : CtxNo) : (s.setCopies x).ctx c = s.ctx c := rfl
@[simp] theorem State.setCopies_isOpen (s : State) (x : RegCopies) : (s.setCopies x).isOpen = s.isOpen := rfl
@[simp] theorem State.setSlave_slot (s : State) (x : Word) (i : SlotNo) : (s.setSlave x).slot i = s.slot i := rfl
@[simp] theorem State.setSlave_line (s : State) (x : Word) (n : LineNo) : (s.setSlave x).line n = s.line n := rfl
@[simp] theorem State.setSlave_ctx (s : State) (x : Word) (c : CtxNo) : (s.setSlave x).ctx c = s.ctx c := rfl
@[simp] theorem State.setSlave_isOpen (s : State) (x : Word) : (s.setSlave x).isOpen = s.isOpen := rfl
@[simp] theorem State.setHostMem_slot (s : State) (x : Memory) (i : SlotNo) : (s.setHostMem x).slot i = s.slot i := rfl
@[simp] theorem State.setHostMem_line (s : State) (x : Memory) (n : LineNo) : (s.setHostMem x).line n = s.line n := rfl
@[simp] theorem State.setHostMem_ctx (s : State) (x : Memory) (c : CtxNo) : (s.setHostMem x).ctx c = s.ctx c := rfl
@[simp] theorem State.setHostMem_isOpen (s : State) (x : Memory) : (s.setHostMem x).isOpen = s.isOpen := rfl
@[simp] theorem State.setFreeIndex_slot (s : State) (x : Nat) (i : SlotNo) : (s.setFreeIndex x).slot i = s.slot i := rfl
@[simp] theorem State.setFreeIndex_line (s : State) (x : Nat) (n : LineNo) : (s.setFreeIndex x).line n = s.line n := rfl
@[simp] theorem State.setFreeIndex_ctx (s : State) (x : Nat) (c : CtxNo) : (s.setFreeIndex x).ctx c = s.ctx c := rfl
@[simp] theorem State.setFreeIndex_isOpen (s : State) (x : Nat) : (s.setFreeIndex x).isOpen = s.isOpen := rfl
@[simp] theorem State.setSlot_line (s : State) (i : SlotNo) (x : Slot) (j : LineNo) : (s.setSlot i x).line j = s.line j := rfl
@[simp] theorem State.setSlot_ctx (s : State) (i : SlotNo) (x : Slot) (j : CtxNo) : (s.setSlot i x).ctx j = s.ctx j := rfl
@[simp] theorem State.setSlot_isOpen (s : State) (i : SlotNo) (x : Slot) : (s.setSlot i x).isOpen = s.isOpen := rfl
@[simp] theorem State.modSlot_line (s : State) (i : SlotNo) (f : Slot → Slot) (j : LineNo) : (s.modSlot i f).line j = s.line j := rfl
@[simp] theorem State.modSlot_ctx (s : State) (i : SlotNo) (f : Slot → Slot) (j : CtxNo) : (s.modSlot i f).ctx j = s.ctx j := rfl
@[simp] theorem State.modSlot_isOpen (s : State) (i : SlotNo) (f : Slot → Slot) : (s.modSlot i f).isOpen = s.isOpen := rfl
@[simp] theorem State.modLine_slot (s : State) (n : LineNo) (f : Line → Line) (j : SlotNo) : (s.modLine n f).slot j = s.slot j := rfl
@[simp] theorem State.modLine_ctx (s : State) (n : LineNo) (f : Line → Line) (j : CtxNo) : (s.modLine n f).ctx j = s.ctx j := rfl
@[simp] theorem State.modLine_isOpen (s : State) (n : LineNo) (f : Line → Line) : (s.modLine n f).isOpen = s.isOpen := rfl
@[simp] theorem State.setCtx_slot (s : State) (c : CtxNo) (x : Option TapContext) (j : SlotNo) : (s.setCtx c x).slot j = s.slot j := rfl
@[simp] theorem State.setCtx_line (s : State) (c : CtxNo) (x : Option TapContext) (j : LineNo) : (s.setCtx c x).line j = s.line j := rfl
@[simp] theorem State.setCtx_isOpen (s : State) (c : CtxNo) (x : Option TapContext) : (s.setCtx c x).isOpen = s.isOpen := rfl
@[simp] theorem State.modChange_slot (s : State) (f : ChangeUnit → ChangeUnit) (j : SlotNo) : (s.modChange f).slot j = s.slot j := rfl
@[simp] theorem State.modChange_line (s : State) (f : ChangeUnit → ChangeUnit) (j : LineNo) : (s.modChange f).line j = s.line j := rfl
@[simp] theorem State.modChange_ctx (s : State) (f : ChangeUnit → ChangeUnit) (j : CtxNo) : (s.modChange f).ctx j = s.ctx j := rfl
@[simp] theorem State.modChange_isOpen (s : State) (f : ChangeUnit → ChangeUnit) : (s.modChange f).isOpen = s.isOpen := rfl
@[simp] theorem State.modUrgent_slot (s : State) (f : Urgent → Urgent) (j : SlotNo) : (s.modUrgent f).slot j = s.slot j := rfl
@[simp] theorem State.modUrgent_line (s : State) (f : Urgent → Urgent) (j : LineNo) : (s.modUrgent f).line j = s.line j := rfl
@[simp] theorem State.modUrgent_ctx (s : State) (f : Urgent → Urgent) (j : CtxNo) : (s.modUrgent f).ctx j = s.ctx j := rfl
@[simp] theorem State.modUrgent_isOpen (s : State) (f : Urgent → Urgent) : (s.modUrgent f).isOpen = s.isOpen := rfl
@[simp] theorem State.modPort_slot (s : State) (f : Port → Port) (j : SlotNo) : (s.modPort f).slot j = s.slot j := rfl
@[simp] theorem State.modPort_line (s : State) (f : Port → Port) (j : LineNo) : (s.modPort f).line j = s.line j := rfl
@[simp] theorem State.modPort_ctx (s : State) (f : Port → Port) (j : CtxNo) : (s.modPort f).ctx j = s.ctx j := rfl
@[simp] theorem State.modPort_isOpen (s : State) (f : Port → Port) : (s.modPort f).isOpen = s.isOpen := rfl
@[simp] theorem State.modCounts_slot (s : State) (f : CacheCounts → CacheCounts) (j : SlotNo) : (s.modCounts f).slot j = s.slot j := rfl
@[simp] theorem State.modCounts_line (s : State) (f : CacheCounts → CacheCounts) (j : LineNo) : (s.modCounts f).line j = s.line j := rfl
@[simp] theorem State.modCounts_ctx (s : State) (f : CacheCounts → CacheCounts) (j : CtxNo) : (s.modCounts f).ctx j = s.ctx j := rfl
@[simp] theorem State.modCounts_isOpen (s : State) (f : CacheCounts → CacheCounts) : (s.modCounts f).isOpen = s.isOpen := rfl

/-! ## One slot, line or context after an update of one -/

theorem State.slot_setSlot (s : State) (i j : SlotNo) (x : Slot) :
    (s.setSlot i x).slot j = if j = i then x else s.slot j := by
  simp only [State.slot, State.setSlot, State.setSlots_slots, Vector.get_eq_getElem, Vector.getElem_set]
  by_cases h : i = j <;> simp [h, eq_comm] <;> simp_all [Fin.ext_iff]

@[simp] theorem State.slot_setSlot_same (s : State) (i : SlotNo) (x : Slot) : (s.setSlot i x).slot i = x := by
  simp [State.slot_setSlot]

theorem State.slot_setSlot_ne (s : State) {i j : SlotNo} (x : Slot) (h : j ≠ i) : (s.setSlot i x).slot j = s.slot j := by
  simp [State.slot_setSlot, h]

theorem State.slot_modSlot (s : State) (i j : SlotNo) (f : Slot → Slot) :
    (s.modSlot i f).slot j = if j = i then f (s.slot i) else s.slot j := by
  simp [State.modSlot, State.slot_setSlot]

@[simp] theorem State.slot_modSlot_same (s : State) (i : SlotNo) (f : Slot → Slot) :
    (s.modSlot i f).slot i = f (s.slot i) := by
  simp [State.slot_modSlot]

theorem State.slot_modSlot_ne (s : State) {i j : SlotNo} (f : Slot → Slot) (h : j ≠ i) :
    (s.modSlot i f).slot j = s.slot j := by
  simp [State.slot_modSlot, h]

theorem State.line_modLine (s : State) (n m : LineNo) (f : Line → Line) :
    (s.modLine n f).line m = if m = n then f (s.line n) else s.line m := by
  simp only [State.line, State.modLine, State.setLines_lines, Vector.get_eq_getElem, Vector.getElem_set]
  by_cases h : n = m <;> simp [h, eq_comm] <;> simp_all [Fin.ext_iff]

@[simp] theorem State.line_modLine_same (s : State) (n : LineNo) (f : Line → Line) :
    (s.modLine n f).line n = f (s.line n) := by
  simp [State.line_modLine]

theorem State.line_modLine_ne (s : State) {n m : LineNo} (f : Line → Line) (h : m ≠ n) :
    (s.modLine n f).line m = s.line m := by
  simp [State.line_modLine, h]

theorem State.ctx_setCtx (s : State) (c d : CtxNo) (x : Option TapContext) :
    (s.setCtx c x).ctx d = if d = c then x else s.ctx d := by
  simp only [State.ctx, State.setCtx, State.setTaps_taps, Vector.get_eq_getElem, Vector.getElem_set]
  by_cases h : c = d <;> simp [h, eq_comm] <;> simp_all [Fin.ext_iff]

@[simp] theorem State.ctx_setCtx_same (s : State) (c : CtxNo) (x : Option TapContext) : (s.setCtx c x).ctx c = x := by
  simp [State.ctx_setCtx]

end Sys2Proof.Machine
end

