-- ==== Sys2Proof/Laws/Frames.lean ====
section
/-! SUPPORT. What the work of the cache, the port, the resolver and the Change Unit cannot reach: a projection of the
state that is blind to the fields they write keeps its value through each of their operations. -/

namespace Sys2Proof.Machine

/-- A projection that does not see the fields which the cache, the port and the tests at the end of an event write:
attention, contexts, slots, lists, counts, pool, port, and the drain fields of Engine Control. -/
structure CacheBlind {α : Type} (π : State → α) : Prop where
  attn : ∀ s x, π (s.setAttn x) = π s
  taps : ∀ s x, π (s.setTaps x) = π s
  slots : ∀ s x, π (s.setSlots x) = π s
  recency : ∀ s x, π (s.setRecency x) = π s
  slotWait : ∀ s x, π (s.setSlotWait x) = π s
  counts : ∀ s x, π (s.setCounts x) = π s
  pool : ∀ s x, π (s.setPool x) = π s
  port : ∀ s x, π (s.setPort x) = π s
  drain : ∀ s st ph u, π (s.setEngine { s.engine with state := st, phase := ph, unflushed := u }) = π s

/-- A projection that does not see the lines, the Change Unit, the urgent registers and the marks either: the device's own
work writes nothing that it sees. -/
structure Blind {α : Type} (π : State → α) : Prop extends CacheBlind π where
  lines : ∀ s x, π (s.setLines x) = π s
  change : ∀ s x, π (s.setChange x) = π s
  urgent : ∀ s x, π (s.setUrgent x) = π s
  marks : ∀ s x, π (s.setMarks x) = π s

section
variable {α : Type} {π : State → α}

theorem clock_blind : Blind State.clock :=
  ⟨by constructor <;> intros <;> rfl, fun _ _ => rfl, fun _ _ => rfl, fun _ _ => rfl, fun _ _ => rfl⟩
theorem tariff_blind : Blind State.tariff :=
  ⟨by constructor <;> intros <;> rfl, fun _ _ => rfl, fun _ _ => rfl, fun _ _ => rfl, fun _ _ => rfl⟩
theorem ranges_blind : Blind State.ranges :=
  ⟨by constructor <;> intros <;> rfl, fun _ _ => rfl, fun _ _ => rfl, fun _ _ => rfl, fun _ _ => rfl⟩
theorem hostMem_blind : Blind State.hostMem :=
  ⟨by constructor <;> intros <;> rfl, fun _ _ => rfl, fun _ _ => rfl, fun _ _ => rfl, fun _ _ => rfl⟩
theorem freeIndex_blind : Blind State.freeIndex :=
  ⟨by constructor <;> intros <;> rfl, fun _ _ => rfl, fun _ _ => rfl, fun _ _ => rfl, fun _ _ => rfl⟩
theorem pending_blind : Blind State.pending :=
  ⟨by constructor <;> intros <;> rfl, fun _ _ => rfl, fun _ _ => rfl, fun _ _ => rfl, fun _ _ => rfl⟩
theorem copies_blind : Blind State.copies :=
  ⟨by constructor <;> intros <;> rfl, fun _ _ => rfl, fun _ _ => rfl, fun _ _ => rfl, fun _ _ => rfl⟩
theorem peek_blind : Blind State.peek :=
  ⟨by constructor <;> intros <;> rfl, fun _ _ => rfl, fun _ _ => rfl, fun _ _ => rfl, fun _ _ => rfl⟩
theorem slave_blind : Blind State.slave :=
  ⟨by constructor <;> intros <;> rfl, fun _ _ => rfl, fun _ _ => rfl, fun _ _ => rfl, fun _ _ => rfl⟩
theorem lineEvents_blind : Blind State.lineEvents :=
  ⟨by constructor <;> intros <;> rfl, fun _ _ => rfl, fun _ _ => rfl, fun _ _ => rfl, fun _ _ => rfl⟩
theorem lastWatch_blind : Blind State.lastWatch :=
  ⟨by constructor <;> intros <;> rfl, fun _ _ => rfl, fun _ _ => rfl, fun _ _ => rfl, fun _ _ => rfl⟩
theorem homeBase_blind : Blind (fun s => s.engine.homeBase) :=
  ⟨by constructor <;> intros <;> rfl, fun _ _ => rfl, fun _ _ => rfl, fun _ _ => rfl, fun _ _ => rfl⟩
theorem lines_cacheBlind : CacheBlind State.lines := by constructor <;> intros <;> rfl
theorem change_cacheBlind : CacheBlind State.change := by constructor <;> intros <;> rfl
theorem urgent_cacheBlind : CacheBlind State.urgent := by constructor <;> intros <;> rfl
theorem marks_cacheBlind : CacheBlind State.marks := by constructor <;> intros <;> rfl
theorem keyShape_blind : Blind (fun s => s.engine.keyShape) :=
  ⟨by constructor <;> intros <;> rfl, fun _ _ => rfl, fun _ _ => rfl, fun _ _ => rfl, fun _ _ => rfl⟩

/-! ## One update -/

theorem modSlot_blind (h : CacheBlind π) (i : SlotNo) (f : Slot → Slot) (s : State) : π (s.modSlot i f) = π s := h.slots _ _
theorem setSlot_blind (h : CacheBlind π) (i : SlotNo) (x : Slot) (s : State) : π (s.setSlot i x) = π s := h.slots _ _
theorem modLine_blind (h : Blind π) (n : LineNo) (f : Line → Line) (s : State) : π (s.modLine n f) = π s := h.lines _ _
theorem setCtx_blind (h : CacheBlind π) (c : CtxNo) (x : Option TapContext) (s : State) : π (s.setCtx c x) = π s :=
  h.taps _ _
theorem modChange_blind (h : Blind π) (f : ChangeUnit → ChangeUnit) (s : State) : π (s.modChange f) = π s :=
  h.change _ _
theorem modUrgent_blind (h : Blind π) (f : Urgent → Urgent) (s : State) : π (s.modUrgent f) = π s := h.urgent _ _
theorem modPort_blind (h : CacheBlind π) (f : Port → Port) (s : State) : π (s.modPort f) = π s := h.port _ _
theorem modCounts_blind (h : CacheBlind π) (f : CacheCounts → CacheCounts) (s : State) : π (s.modCounts f) = π s :=
  h.counts _ _

theorem raise_blind (h : CacheBlind π) (x : Source) (s : State) : π (raise x s) = π s := by
  unfold raise; split <;> simp [h.attn]

theorem ask_blind (h : CacheBlind π) (q : Request) (s : State) : π (ask q s) = π s := modPort_blind h _ _

theorem touch_blind (h : CacheBlind π) (i : SlotNo) (s : State) : π (touch i s) = π s := h.recency _ _

theorem leaveRecency_blind (h : CacheBlind π) (i : SlotNo) (s : State) : π (leaveRecency i s) = π s := h.recency _ _

/-! ## The cache -/

theorem takeCells_blind (h : CacheBlind π) (i : SlotNo) (ps : List ProductEntry) (s : State) :
    π (takeCells i ps s) = π s := by simp [takeCells, modSlot_blind h, h.pool]

theorem returnCells_blind (h : CacheBlind π) (i : SlotNo) (s : State) : π (returnCells i s) = π s := by
  simp [returnCells, modSlot_blind h, h.pool]

theorem returnCell_blind (h : CacheBlind π) (i : SlotNo) (c : CellNo) (s : State) : π (returnCell i c s) = π s := by
  simp [returnCell, modSlot_blind h, h.pool]

theorem issueWrite_blind (h : CacheBlind π) (i : SlotNo) (s : State) : π (issueWrite i s) = π s := by
  simp [issueWrite, ask_blind h, modSlot_blind h]

theorem cleanEvict_blind (h : CacheBlind π) (i : SlotNo) (s : State) : π (cleanEvict i s) = π s := by
  simp [cleanEvict, modCounts_blind h, setSlot_blind h, leaveRecency_blind h, returnCells_blind h]

theorem beginEvicting_blind (h : CacheBlind π) (i : SlotNo) (s : State) : π (beginEvicting i s) = π s := by
  simp [beginEvicting, modSlot_blind h, leaveRecency_blind h]

theorem evictionWrite_blind (h : CacheBlind π) (i : SlotNo) (qs : List Requester) (s : State) :
    π (evictionWrite i qs s) = π s := by
  simp [evictionWrite, modCounts_blind h, modSlot_blind h, issueWrite_blind h]

theorem dirtyEvict_blind (h : CacheBlind π) (i : SlotNo) (qs : List Requester) (s : State) :
    π (dirtyEvict i qs s) = π s := by simp [dirtyEvict, evictionWrite_blind h, beginEvicting_blind h]

theorem oweEviction_blind (h : CacheBlind π) (i : SlotNo) (q : Requester) (s : State) : π (oweEviction i q s) = π s := by
  simp [oweEviction, modSlot_blind h, beginEvicting_blind h]

theorem evictFor_blind (h : CacheBlind π) (i : SlotNo) (q : Requester) (s : State) : π (evictFor i q s) = π s := by
  unfold evictFor; split <;> simp [oweEviction_blind h, dirtyEvict_blind h]

theorem flushWrite_blind (h : CacheBlind π) (i : SlotNo) (qs : List Requester) (s : State) :
    π (flushWrite i qs s) = π s := by simp [flushWrite, modSlot_blind h, issueWrite_blind h]

theorem placeFlush_blind (h : CacheBlind π) (i : SlotNo) (q : Requester) (s : State) : π (placeFlush i q s) = π s := by
  unfold placeFlush; split <;> simp [modSlot_blind h, flushWrite_blind h]

theorem startFetch_blind (h : CacheBlind π) (i : SlotNo) (k : Key) (ws : List Waiter) (s : State) :
    π (startFetch i k ws s) = π s := by simp [startFetch, ask_blind h, modCounts_blind h, setSlot_blind h]

theorem setAwait_blind (h : CacheBlind π) (b : Bool) (w : Waiter) (s : State) : π (setAwait b w s) = π s := by
  unfold setAwait; split
  · split <;> simp [setCtx_blind h]
  · rfl

/-- A fold of steps each of which a projection is blind to. -/
theorem foldl_blind {β : Type} (f : State → β → State) (hf : ∀ s b, π (f s b) = π s) (l : List β) (s : State) :
    π (l.foldl f s) = π s := by
  induction l generalizing s with
  | nil => rfl
  | cons b l ih => rw [List.foldl_cons, ih, hf]

theorem awaitAll_blind (h : CacheBlind π) (ws : List Waiter) (s : State) : π (awaitAll ws s) = π s :=
  foldl_blind _ (fun s w => setAwait_blind h true w s) ws s

theorem handOver_blind (h : CacheBlind π) (i : SlotNo) (s : State) : π (handOver i s) = π s := by
  unfold handOver; split
  · rfl
  · simp [startFetch_blind h, awaitAll_blind h, h.slotWait]

theorem joinWaiting_blind (h : CacheBlind π) (i : SlotNo) (w : Waiter) (s : State) : π (joinWaiting i w s) = π s := by
  unfold joinWaiting
  dsimp only
  split <;> simp [modCounts_blind h, modSlot_blind h, setAwait_blind h]

theorem joinSlotWait_blind (h : CacheBlind π) (w : Waiter) (s : State) : π (joinSlotWait w s) = π s := by
  simp [joinSlotWait, setAwait_blind h, h.slotWait]

theorem seekDirtyVictim_blind (h : CacheBlind π) (s : State) : π (seekDirtyVictim s) = π s := by
  unfold seekDirtyVictim; split <;> simp [dirtyEvict_blind h, raise_blind h]

theorem miss_blind (h : CacheBlind π) (k : Key) (w : Waiter) (s : State) : π (miss k w s) = π s := by
  unfold miss; split
  · exact joinSlotWait_blind h _ _
  · split
    · simp [startFetch_blind h, setAwait_blind h]
    · split
      · simp [startFetch_blind h, setAwait_blind h, cleanEvict_blind h]
      · simp [seekDirtyVictim_blind h, joinSlotWait_blind h]

theorem withdraw_blind (h : CacheBlind π) (w : Waiter) (s : State) : π (withdraw w s) = π s := by
  simp [withdraw, h.slotWait, h.slots]

theorem iterate_blind (f : State → State) (hf : ∀ s, π (f s) = π s) (n : Nat) (s : State) :
    π (iterate f n s) = π s := by
  induction n generalizing s with
  | zero => rfl
  | succ n ih => rw [iterate, ih, hf]

theorem reclaimOne_blind (h : CacheBlind π) (s : State) : π (reclaimOne s) = π s := by
  unfold reclaimOne; split
  · rfl
  · split <;> simp [handOver_blind h, cleanEvict_blind h]

theorem reclaimRun_blind (h : CacheBlind π) (s : State) : π (reclaimRun s) = π s := iterate_blind _ (reclaimOne_blind h) _ _

theorem cleanerOne_blind (h : CacheBlind π) (s : State) : π (cleanerOne s) = π s := by
  unfold cleanerOne; split
  · split <;> simp [modCounts_blind h, modSlot_blind h, flushWrite_blind h]
  · rfl

theorem cleanerRun_blind (h : CacheBlind π) (s : State) : π (cleanerRun s) = π s := by
  simp [cleanerRun, cleanerOne_blind h]

theorem freeClean_blind (h : CacheBlind π) (own : SlotNo) (n : Nat) (l : List SlotNo) (s : State) :
    π (freeClean own n l s) = π s := by
  induction l generalizing s with
  | nil => rfl
  | cons i l ih => unfold freeClean; split <;> simp [ih, handOver_blind h, cleanEvict_blind h]

theorem freeCleanFor_blind (h : CacheBlind π) (own : SlotNo) (n : Nat) (s : State) : π (freeCleanFor own n s) = π s :=
  freeClean_blind h _ _ _ _

theorem evictForCells_blind (h : CacheBlind π) (need : Nat) (l : List SlotNo) (s : State) :
    π (evictForCells need l s) = π s := by
  induction l generalizing need s with
  | nil => rfl
  | cons i l ih => unfold evictForCells; split <;> simp [ih, dirtyEvict_blind h]

theorem addPass_blind (h : CacheBlind π) (w : Waiter) (s : State) : π (addPass w s) = π s := h.slots _ _

theorem beginOne_blind (h : CacheBlind π) (s : State) : π (beginOne s) = π s := by
  unfold beginOne; split
  · rfl
  · split <;> simp [modPort_blind h]

theorem beginRequests_blind (h : CacheBlind π) (s : State) : π (beginRequests s) = π s := by
  simp [beginRequests, beginOne_blind h]

/-! ## Resolution, record commands, answers -/

theorem deliver_blind (h : Blind π) (n : LineNo) (v : Verdict) (s : State) : π (deliver n v s) = π s :=
  modLine_blind h _ _ _

theorem writePaid_blind (h : CacheBlind π) (i : SlotNo) (p : Option (Nat × ProductEntry)) (s : State) :
    π (writePaid i p s) = π s := by
  unfold writePaid; split
  · rfl
  · split <;> simp [h.pool]

theorem resolveAt_blind (h : Blind π) (i : SlotNo) (x : TapContext) (s : State) : π (resolveAt i x s) = π s := by
  unfold resolveAt
  dsimp only
  split <;> simp [deliver_blind h, touch_blind h.toCacheBlind, writePaid_blind h.toCacheBlind, modSlot_blind h.toCacheBlind]

theorem answerTap_blind (h : Blind π) (c : CtxNo) (o : VOutcome) (why : Reason) (s : State) :
    π (answerTap c o why s) = π s := by
  unfold answerTap; split <;> simp [deliver_blind h, setCtx_blind h.toCacheBlind]

theorem resolveWaiting_blind (h : Blind π) (i : SlotNo) (c : CtxNo) (s : State) :
    π (resolveWaiting i c s) = π s := by
  unfold resolveWaiting; split <;> simp [resolveAt_blind h, setCtx_blind h.toCacheBlind]

theorem storeStatus_blind (h : Blind π) (c : Status) (r : Word) (s : State) : π (storeStatus c r s) = π s := by
  simp [storeStatus, ask_blind h.toCacheBlind, modChange_blind h]

theorem finishUrgent_blind (h : Blind π) (r : UrgentResult) (v : Half) (s : State) :
    π (finishUrgent r v s) = π s := by simp [finishUrgent, raise_blind h.toCacheBlind, modUrgent_blind h]

theorem removeMark_blind (h : Blind π) (x : Ident) (s : State) : π (removeMark x s) = π s := h.marks _ _

theorem answerFlushAll_blind (h : Blind π) (ok : Bool) (s : State) : π (answerFlushAll ok s) = π s := by
  unfold answerFlushAll
  dsimp only
  split <;> simp [storeStatus_blind h, modChange_blind h]

theorem answer_blind (h : Blind π) (ok : Bool) (g : Half) (q : Requester) (s : State) :
    π (answer ok g q s) = π s := by
  cases q <;> simp [answer, storeStatus_blind h, answerFlushAll_blind h, finishUrgent_blind h]

theorem answerAll_blind (h : Blind π) (ok : Bool) (g : Half) (qs : List Requester) (s : State) :
    π (answerAll ok g qs s) = π s := foldl_blind _ (fun s q => answer_blind h ok g q s) qs s

theorem amendRecord_blind (h : CacheBlind π) (i : SlotNo) (f : Record → Record) (s : State) :
    π (amendRecord i f s) = π s := modSlot_blind h _ _ _

theorem refuseCellShort_blind (h : Blind π) (r : Word) (s : State) : π (refuseCellShort r s) = π s := by
  simp [refuseCellShort, raise_blind h.toCacheBlind, storeStatus_blind h]

theorem applyEnroll_blind (h : Blind π) (i : SlotNo) (s : State) : π (applyEnroll i s) = π s := by
  unfold applyEnroll; split
  · exact storeStatus_blind h _ _ _
  · dsimp only
    split <;>
      simp [storeStatus_blind h, amendRecord_blind h.toCacheBlind, takeCells_blind h.toCacheBlind, freeCleanFor_blind h.toCacheBlind, refuseCellShort_blind h]

theorem applyAddProduct_blind (h : Blind π) (i : SlotNo) (s : State) : π (applyAddProduct i s) = π s := by
  unfold applyAddProduct; split
  · exact storeStatus_blind h _ _ _
  · split
    · exact storeStatus_blind h _ _ _
    · dsimp only
      split <;>
        simp [storeStatus_blind h, amendRecord_blind h.toCacheBlind, takeCells_blind h.toCacheBlind, freeCleanFor_blind h.toCacheBlind,
          refuseCellShort_blind h]

theorem applyChecked_blind (h : Blind π) (c : ChangeCommand) (i : SlotNo) (s : State) :
    π (applyChecked c i s) = π s := by
  cases c <;> simp only [applyChecked]
  case enroll => exact applyEnroll_blind h i s
  case amend => unfold applyAmend; split <;> simp [storeStatus_blind h, amendRecord_blind h.toCacheBlind]
  case adjust => unfold applyAdjust; dsimp only; split <;> simp [storeStatus_blind h, amendRecord_blind h.toCacheBlind]
  case addProduct => exact applyAddProduct_blind h i s
  case removeProduct =>
    unfold applyRemoveProduct
    split <;> simp [storeStatus_blind h, amendRecord_blind h.toCacheBlind, returnCell_blind h.toCacheBlind]
  case block => simp [applyBlock, storeStatus_blind h, amendRecord_blind h.toCacheBlind]
  case unblock => simp [applyUnblock, storeStatus_blind h, amendRecord_blind h.toCacheBlind, removeMark_blind h]
  case retire =>
    simp [applyRetire, modChange_blind h, evictFor_blind h.toCacheBlind, removeMark_blind h, amendRecord_blind h.toCacheBlind,
      returnCells_blind h.toCacheBlind]
  case flush => unfold applyFlush; split <;> simp [storeStatus_blind h, modChange_blind h, placeFlush_blind h.toCacheBlind]

theorem applyCommand_blind (h : Blind π) (c : ChangeCommand) (i : SlotNo) (s : State) :
    π (applyCommand c i s) = π s := by
  unfold applyCommand; split <;> simp [storeStatus_blind h, applyChecked_blind h, touch_blind h.toCacheBlind]

theorem applyWaiting_blind (h : Blind π) (i : SlotNo) (s : State) : π (applyWaiting i s) = π s := by
  unfold applyWaiting; split <;> simp [applyCommand_blind h]

theorem takeEntry_blind (h : Blind π) (i : SlotNo) (w : Waiter) (s : State) : π (takeEntry i w s) = π s := by
  cases w <;> simp [takeEntry, resolveWaiting_blind h, applyWaiting_blind h]

theorem keepBehindRetire_blind (h : Blind π) (i : SlotNo) (ws : List Waiter) (s : State) :
    π (keepBehindRetire i ws s) = π s := by
  cases ws <;> simp [keepBehindRetire, modCounts_blind h.toCacheBlind, modSlot_blind h.toCacheBlind]

theorem serve_blind (h : Blind π) (i : SlotNo) (ws : List Waiter) (s : State) : π (serve i ws s) = π s := by
  induction ws generalizing s with
  | nil => rfl
  | cons w ws ih =>
    unfold serve
    dsimp only
    split <;> simp [ih, takeEntry_blind h, keepBehindRetire_blind h]

theorem answerWaiter_blind (h : Blind π) (o : VOutcome) (why : Reason) (c : Status) (w : Waiter) (s : State) :
    π (answerWaiter o why c w s) = π s := by cases w <;> simp [answerWaiter, answerTap_blind h, storeStatus_blind h]

theorem answerWaiters_blind (h : Blind π) (o : VOutcome) (why : Reason) (c : Status) (ws : List Waiter) (s : State) :
    π (answerWaiters o why c ws s) = π s := foldl_blind _ (fun s w => answerWaiter_blind h o why c w s) ws s

/-! ## Completions and the end of an event -/

theorem enterRecord_blind (h : CacheBlind π) (i : SlotNo) (r : Record) (ps : List ProductEntry) (s : State) :
    π (enterRecord i r ps s) = π s := by simp [enterRecord, touch_blind h, takeCells_blind h, setSlot_blind h]

theorem applyMark_blind (h : Blind π) (i : SlotNo) (s : State) : π (applyMark i s) = π s := by
  unfold applyMark
  dsimp only
  split <;> simp [removeMark_blind h, amendRecord_blind h.toCacheBlind]

theorem foldPasses_blind (h : Blind π) (i : SlotNo) (p : Byte) (s : State) : π (foldPasses i p s) = π s := by
  unfold foldPasses; split <;> simp [amendRecord_blind h.toCacheBlind]

theorem fetchDone_blind (h : Blind π) (i : SlotNo) (ws : List Word) (s : State) : π (fetchDone i ws s) = π s := by
  unfold fetchDone; split
  · simp [fetchDamaged, raise_blind h.toCacheBlind, answerWaiters_blind h, handOver_blind h.toCacheBlind, setSlot_blind h.toCacheBlind]
  · unfold fetchValid
    dsimp only
    split
    · simp [serve_blind h, foldPasses_blind h, applyMark_blind h, enterRecord_blind h.toCacheBlind, freeCleanFor_blind h.toCacheBlind]
    · simp [fetchShort, handOver_blind h.toCacheBlind, raise_blind h.toCacheBlind, answerWaiters_blind h, setSlot_blind h.toCacheBlind,
        evictForCells_blind h.toCacheBlind, freeCleanFor_blind h.toCacheBlind]

theorem fetchFailed_blind (h : Blind π) (i : SlotNo) (s : State) : π (fetchFailed i s) = π s := by
  simp [fetchFailed, handOver_blind h.toCacheBlind, answerWaiters_blind h, setSlot_blind h.toCacheBlind]

theorem returnToResident_blind (h : CacheBlind π) (i : SlotNo) (ok : Bool) (s : State) :
    π (returnToResident i ok s) = π s := by simp [returnToResident, touch_blind h, modSlot_blind h]

theorem seekAfterReclaim_blind (h : CacheBlind π) (s : State) : π (seekAfterReclaim s) = π s := by
  unfold seekAfterReclaim
  dsimp only
  split <;> simp [seekDirtyVictim_blind h, reclaimRun_blind h]

theorem evictionDone_blind (h : Blind π) (i : SlotNo) (ok : Bool) (s : State) : π (evictionDone i ok s) = π s := by
  unfold evictionDone
  dsimp only
  split <;>
    simp [answerAll_blind h, handOver_blind h.toCacheBlind, setSlot_blind h.toCacheBlind, returnCells_blind h.toCacheBlind, seekAfterReclaim_blind h.toCacheBlind,
      serve_blind h, returnToResident_blind h.toCacheBlind]

theorem clearFlush_blind (h : CacheBlind π) (i : SlotNo) (s : State) : π (clearFlush i s) = π s := by
  unfold clearFlush
  dsimp only
  split <;> simp [modCounts_blind h, modSlot_blind h]

theorem settleNext_blind (h : Blind π) (i : SlotNo) (g : Half) (s : State) : π (settleNext i g s) = π s := by
  unfold settleNext
  dsimp only
  split
  · rfl
  · split <;> simp [flushWrite_blind h.toCacheBlind, answerAll_blind h, modSlot_blind h.toCacheBlind]

theorem flushDone_blind (h : Blind π) (i : SlotNo) (ok : Bool) (s : State) : π (flushDone i ok s) = π s := by
  unfold flushDone; split
  · unfold flushDoneOwed
    dsimp only
    split
    · split <;>
        simp [answerAll_blind h, handOver_blind h.toCacheBlind, cleanEvict_blind h.toCacheBlind, serve_blind h, returnToResident_blind h.toCacheBlind,
          clearFlush_blind h.toCacheBlind]
    · simp [evictionWrite_blind h.toCacheBlind, answerAll_blind h, clearFlush_blind h.toCacheBlind]
  · simp [flushDoneResident, settleNext_blind h, answerAll_blind h, modSlot_blind h.toCacheBlind, clearFlush_blind h.toCacheBlind]

theorem drainSlot_blind (h : CacheBlind π) (i : SlotNo) (s : State) : π (drainSlot i s) = π s := by
  unfold drainSlot
  dsimp only
  split
  · split
    · exact oweEviction_blind h _ _ _
    · split <;> simp [dirtyEvict_blind h, handOver_blind h, cleanEvict_blind h]
  · rfl

theorem evictAllSlots_blind (h : CacheBlind π) (s : State) : π (evictAllSlots s) = π s := by
  unfold evictAllSlots
  rw [foldl_blind _ (fun s i => drainSlot_blind h i s)]
  exact h.drain s s.engine.state _ s.engine.unflushed

theorem evictAllTest_blind (h : CacheBlind π) (s : State) : π (evictAllTest s) = π s := by
  unfold evictAllTest; split <;> simp [evictAllSlots_blind h]

theorem drainEvictSlot_blind (h : CacheBlind π) (s : State) (i : SlotNo) : π (drainEvictSlot s i) = π s := by
  unfold drainEvictSlot; split <;> simp [drainSlot_blind h]

theorem drainEvictions_blind (h : CacheBlind π) (s : State) : π (drainEvictions s) = π s := by
  unfold drainEvictions; split
  · exact foldl_blind _ (drainEvictSlot_blind h) _ _
  · rfl

theorem finishDrain_blind (h : CacheBlind π) (s : State) : π (finishDrain s) = π s := by
  unfold finishDrain; rw [raise_blind h]; exact h.drain _ _ _ _

theorem drainTest_blind (h : CacheBlind π) (s : State) : π (drainTest s) = π s := by
  unfold drainTest; split <;> simp [finishDrain_blind h]

/-- The tests at the end of an event reach no field that a blind projection sees. -/
theorem settle_blind (h : CacheBlind π) (s : State) : π (settle s) = π s := by
  simp [settle, beginRequests_blind h, cleanerRun_blind h, drainTest_blind h, drainEvictions_blind h,
    evictAllTest_blind h, reclaimRun_blind h]

/-! ## The Change Unit -/

theorem readBlock_blind (h : Blind π) (a : Word) (s : State) : π (readBlock a s) = π s := by
  simp [readBlock, ask_blind h.toCacheBlind, modChange_blind h]

theorem stopUnit_blind (h : Blind π) (x : ChangeState) (s : State) : π (stopUnit x s) = π s := by
  simp [stopUnit, raise_blind h.toCacheBlind, modChange_blind h]

theorem haltUnit_blind (h : Blind π) (s : State) : π (haltUnit s) = π s := modChange_blind h _ _

theorem requestRecord_blind (h : Blind π) (c : ChangeCommand) (s : State) : π (requestRecord c s) = π s := by
  unfold requestRecord
  dsimp only
  split
  · split <;> simp [applyCommand_blind h, joinWaiting_blind h.toCacheBlind, modChange_blind h]
  · simp [miss_blind h.toCacheBlind, modChange_blind h]

theorem runFlushAll_blind (h : Blind π) (s : State) : π (runFlushAll s) = π s := by
  unfold runFlushAll
  dsimp only
  split
  · exact storeStatus_blind h _ _ _
  · rw [modChange_blind h, foldl_blind _ (fun s i => placeFlush_blind h.toCacheBlind i .flushAll s)]

theorem signalChgDone_blind (h : Blind π) (s : State) : π (signalChgDone s) = π s := by
  unfold signalChgDone
  dsimp only
  split
  · split <;> simp [h.attn, raise_blind h.toCacheBlind]
  · split <;> simp [h.attn, raise_blind h.toCacheBlind]

theorem nextBlock_blind (h : Blind π) (s : State) : π (nextBlock s) = π s := by
  unfold nextBlock
  dsimp only
  split
  · exact stopUnit_blind h _ _
  · split <;> exact stopUnit_blind h _ _
  · split
    · exact stopUnit_blind h _ _
    · split
      · exact stopUnit_blind h _ _
      · exact readBlock_blind h _ _

theorem completeBlock_blind (h : Blind π) (s : State) : π (completeBlock s) = π s := by
  unfold completeBlock
  dsimp only
  rw [nextBlock_blind h]
  split <;> simp [signalChgDone_blind h, modChange_blind h]

theorem followLink_blind (h : Blind π) (s : State) : π (followLink s) = π s := by
  unfold followLink; split
  · exact readBlock_blind h _ _
  · exact stopUnit_blind h _ _
  · exact stopUnit_blind h _ _

theorem blockReadEnds_blind (h : Blind π) (b : Bool) (s : State) : π (blockReadEnds b s) = π s := by
  unfold blockReadEnds; split <;> simp [modChange_blind h, haltUnit_blind h]

/-- The requester's own rule at the end of an operation reaches no field that a blind projection sees. -/
theorem deliverEnd_blind (h : Blind π) (o : Op) (ok : Bool) (s : State) : π (deliverEnd o ok s) = π s := by
  unfold deliverEnd; split
  · split <;> simp [fetchDone_blind h, fetchFailed_blind h]
  · split <;> simp [flushDone_blind h, evictionDone_blind h]
  · exact blockReadEnds_blind h _ _
  · split <;> simp [completeBlock_blind h, haltUnit_blind h]

end

end Sys2Proof.Machine
end

