-- ==== Sys2Proof/Laws/Ops.lean ====
section
/-! SUPPORT. What each shared operation of the cache, the pool, the lines and the units does, field by field, once for all
who cite it. -/

namespace Sys2Proof.Machine

/-! ## Vectors and states -/

theorem get_set_eq {α : Type} {n : Nat} (v : Vector α n) (i : Fin n) (x : α) :
    (v.set i.val x i.isLt).get i = x := by
  show (v.set i.val x i.isLt)[i.val] = x
  simp

theorem get_set_ne {α : Type} {n : Nat} (v : Vector α n) {i j : Fin n} (x : α) (h : j ≠ i) :
    (v.set i.val x i.isLt).get j = v.get j := by
  have : i.val ≠ j.val := fun e => h (Fin.ext e.symm)
  show (v.set i.val x i.isLt)[j.val] = v[j.val]
  simp [this]

theorem set_set_eq {α : Type} {n : Nat} (v : Vector α n) (i : Fin n) (x y : α) :
    (v.set i.val x i.isLt).set i.val y i.isLt = v.set i.val y i.isLt := by
  apply Vector.ext
  intro j hj
  simp

theorem set_get_eq {α : Type} {n : Nat} (v : Vector α n) (i : Fin n) : v.set i.val (v.get i) i.isLt = v := by
  apply Vector.ext
  intro j hj
  show (v.set i.val v[i.val] i.isLt)[j] = v[j]
  simp

theorem get_map_eq {α β : Type} {n : Nat} (f : α → β) (v : Vector α n) (i : Fin n) : (v.map f).get i = f (v.get i) := by
  show (v.map f)[i.val] = f v[i.val]
  simp

theorem get_replicate_eq {α : Type} {n : Nat} (x : α) (i : Fin n) : (Vector.replicate n x).get i = x := by
  show (Vector.replicate n x)[i.val] = x
  simp

/-- Two states with the same fields are the same state. -/
theorem State.eq_of_fields {s t : State} (h1 : s.engine = t.engine) (h2 : s.clock = t.clock) (h3 : s.attn = t.attn)
    (h4 : s.lines = t.lines) (h5 : s.lineEvents = t.lineEvents) (h6 : s.taps = t.taps) (h7 : s.slots = t.slots)
    (h8 : s.recency = t.recency) (h9 : s.slotWait = t.slotWait) (h10 : s.counts = t.counts) (h11 : s.pool = t.pool)
    (h12 : s.port = t.port) (h13 : s.tariff = t.tariff) (h14 : s.ranges = t.ranges)
    (h15 : s.lastWatch = t.lastWatch) (h16 : s.change = t.change) (h17 : s.urgent = t.urgent)
    (h18 : s.marks = t.marks) (h19 : s.peek = t.peek) (h20 : s.copies = t.copies) (h21 : s.slave = t.slave)
    (h22 : s.hostMem = t.hostMem) (h23 : s.freeIndex = t.freeIndex) (h24 : s.pending = t.pending) : s = t := by
  cases s
  cases t
  simp only at *
  subst_vars
  rfl

theorem modLine_modLine (s : State) (n : LineNo) (f g : Line → Line) :
    (s.modLine n f).modLine n g = s.modLine n fun l => g (f l) := by
  simp only [State.modLine, State.line, State.setLines, get_set_eq, set_set_eq]

theorem modSlot_modSlot (s : State) (i : SlotNo) (f g : Slot → Slot) :
    (s.modSlot i f).modSlot i g = s.modSlot i fun x => g (f x) := by
  simp only [State.modSlot, State.setSlot, State.slot, State.setSlots, get_set_eq, set_set_eq]

theorem setSlot_modSlot (s : State) (i : SlotNo) (x : Slot) (f : Slot → Slot) :
    (s.setSlot i x).modSlot i f = s.setSlot i (f x) := by
  simp only [State.modSlot, State.setSlot, State.slot, State.setSlots, get_set_eq, set_set_eq]

theorem modSlot_setSlot (s : State) (i : SlotNo) (x : Slot) (f : Slot → Slot) :
    (s.modSlot i f).setSlot i x = s.setSlot i x := by
  simp only [State.modSlot, State.setSlot, State.slot, State.setSlots, set_set_eq]

/-! ## Attention -/

/-- R179, R185: a raise writes the Attention Controller alone. -/
theorem raise_eq (x : Source) (s : State) :
    raise x s =
      s.setAttn
        (if s.isOpen = true then { s.attn with pending := s.attn.pending ||| x.bit } else s.attn) := by
  unfold raise
  split
  · rfl
  · rfl

/-! ## The lookups -/

/-- What `firstSlot` finds passes the test. -/
theorem firstSlot_some {p : Slot → Bool} {s : State} {i : SlotNo} (h : firstSlot p s = some i) :
    p (s.slot i) = true := by
  simp only [firstSlot, Option.map_eq_some_iff] at h
  obtain ⟨⟨j, x⟩, hf, rfl⟩ := h
  have hp := List.find?_some hf
  have hm := List.mem_of_find?_eq_some hf
  obtain ⟨k, hk, he⟩ := List.mem_iff_getElem.mp hm
  simp only [List.getElem_zip, Prod.mk.injEq] at he
  have hk' : k < 256 := by
    have := hk
    simp [allSlots] at this
    exact this
  have hj : j = ⟨k, hk'⟩ := by
    rw [← he.1]
    simp [allSlots]
  have hx : x = s.slot j := by
    rw [← he.2, hj]
    show _ = s.slots[k]
    simp
  rw [← hx]
  exact hp

/-- R21: the slot that a lookup finds is not FREE and holds the key. -/
theorem findSlot_some {k : Key} {s : State} {i : SlotNo} (h : findSlot k s = some i) :
    (s.slot i).state ≠ .free ∧ (s.slot i).key = k := by
  have := firstSlot_some h
  simpa using this

/-- R25: the slot that a miss takes is FREE. -/
theorem firstFree_some {s : State} {i : SlotNo} (h : firstFree s = some i) : (s.slot i).state = .free := by
  have := firstSlot_some h
  simpa using this

/-- R29: a victim is on the recency list and passes the test. -/
theorem victim_some {p : Slot → Bool} {s : State} {i : SlotNo} (h : victim p s = some i) :
    i ∈ s.recency ∧ p (s.slot i) = true := by
  unfold victim at h
  exact ⟨by simpa using List.mem_of_find?_eq_some h, by simpa using List.find?_some h⟩

/-! ## Writes, evictions, fetches -/

/-- R16, R38: the issue of a write-back: the slot's record with its generation advanced, dirty and wb_fault clear, and one
request at the tail of the list. -/
theorem issueWrite_slot (i : SlotNo) (s : State) :
    (issueWrite i s).slot i =
      { s.slot i with
        record := { (s.slot i).record with generation := (s.slot i).record.generation + 1 }, dirty := false,
        wbFault := false } := by
  simp [issueWrite, ask, State.modPort, State.setPort, State.modSlot, State.setSlot, State.setSlots, State.slot,
    get_set_eq]

theorem issueWrite_slot_ne (i j : SlotNo) (s : State) (h : j ≠ i) : (issueWrite i s).slot j = s.slot j := by
  simp [issueWrite, ask, State.modPort, State.setPort, State.modSlot, State.setSlot, State.setSlots, State.slot,
    get_set_ne _ _ h]

theorem issueWrite_inFlight (i : SlotNo) (s : State) : (issueWrite i s).port.inFlight = s.port.inFlight := rfl

theorem issueWrite_length (i : SlotNo) (s : State) :
    (issueWrite i s).port.list.length = s.port.list.length + 1 := by
  simp [issueWrite, ask, State.modPort, State.setPort, State.modSlot, State.setSlot, State.setSlots]

/-- A flush-type write at a slot: what R38 leaves there. -/
theorem flushWrite_slot (i : SlotNo) (qs : List Requester) (s : State) :
    (flushWrite i qs s).slot i =
      { s.slot i with
        record := { (s.slot i).record with generation := (s.slot i).record.generation + 1 }, dirty := false,
        wbFault := false, writeInFlight := true, writeReqs := qs, nextReqs := [] } := by
  simp only [flushWrite, State.slot_modSlot, if_true, issueWrite_slot]

theorem flushWrite_slot_ne (i j : SlotNo) (qs : List Requester) (s : State) (h : j ≠ i) :
    (flushWrite i qs s).slot j = s.slot j := by
  rw [flushWrite, State.slot_modSlot_ne _ _ h, issueWrite_slot_ne _ _ _ h]

/-- A dirty eviction: what R34 leaves at the slot. -/
theorem dirtyEvict_slot (i : SlotNo) (qs : List Requester) (s : State) :
    (dirtyEvict i qs s).slot i =
      { s.slot i with
        state := .evicting, waiting := [], rescued := false,
        record := { (s.slot i).record with generation := (s.slot i).record.generation + 1 }, dirty := false,
        wbFault := false, writeReqs := qs, nextReqs := [] } := by
  simp [dirtyEvict, evictionWrite, beginEvicting, leaveRecency, State.modCounts, State.setCounts, State.setRecency,
    State.modSlot, State.setSlot, State.setSlots, State.slot, get_set_eq, issueWrite, ask, State.modPort,
    State.setPort]

theorem dirtyEvict_slot_ne (i j : SlotNo) (qs : List Requester) (s : State) (h : j ≠ i) :
    (dirtyEvict i qs s).slot j = s.slot j := by
  simp [dirtyEvict, evictionWrite, beginEvicting, leaveRecency, State.modCounts, State.setCounts, State.setRecency,
    State.modSlot, State.setSlot, State.setSlots, State.slot, get_set_ne _ _ h, issueWrite, ask, State.modPort,
    State.setPort]

theorem dirtyEvict_recency (i : SlotNo) (qs : List Requester) (s : State) :
    (dirtyEvict i qs s).recency = s.recency.filter (· != i) := rfl

/-- A clean eviction: the slot is FREE, its cells are returned, and it leaves the recency list (R33). -/
theorem cleanEvict_slot (i : SlotNo) (s : State) : (cleanEvict i s).slot i = Slot.unused := by
  simp [cleanEvict, State.modCounts, State.setCounts, State.setSlot, State.setSlots, State.slot, get_set_eq]

theorem cleanEvict_slot_ne (i j : SlotNo) (s : State) (h : j ≠ i) : (cleanEvict i s).slot j = s.slot j := by
  simp [cleanEvict, returnCells, leaveRecency, State.modCounts, State.setCounts, State.setRecency, State.setPool,
    State.modSlot, State.setSlot, State.setSlots, State.slot, get_set_ne _ _ h]

theorem cleanEvict_recency (i : SlotNo) (s : State) : (cleanEvict i s).recency = s.recency.filter (· != i) := rfl

theorem cleanEvict_free (i : SlotNo) (s : State) :
    (cleanEvict i s).pool.free = (s.slot i).cells.reverse ++ s.pool.free := rfl

theorem cleanEvict_port (i : SlotNo) (s : State) : (cleanEvict i s).port = s.port := rfl

/-- A fetch that starts: what R30 leaves at the slot. -/
theorem startFetch_slot (i : SlotNo) (k : Key) (ws : List Waiter) (s : State) :
    (startFetch i k ws s).slot i = { Slot.unused with state := .fetching, key := k, waiting := ws } := by
  simp [startFetch, ask, State.modPort, State.setPort, State.modCounts, State.setCounts, State.setSlot,
    State.setSlots, State.slot, get_set_eq]

theorem startFetch_slot_ne (i j : SlotNo) (k : Key) (ws : List Waiter) (s : State) (h : j ≠ i) :
    (startFetch i k ws s).slot j = s.slot j := by
  simp [startFetch, ask, State.modPort, State.setPort, State.modCounts, State.setCounts, State.setSlot,
    State.setSlots, State.slot, get_set_ne _ _ h]

theorem startFetch_list (i : SlotNo) (k : Key) (ws : List Waiter) (s : State) :
    (startFetch i k ws s).port.list = s.port.list ++ [.fetch i k (homeAddr s k)] := rfl

/-- R43: with no request waiting, a hand-over does nothing. -/
theorem handOver_nil (i : SlotNo) (s : State) (h : s.slotWait = []) : handOver i s = s := by
  unfold handOver
  rw [h]

/-- R44: with no request waiting, reclaim does nothing. -/
theorem reclaimRun_nil (s : State) (h : s.slotWait = []) : reclaimRun s = s := by
  unfold reclaimRun
  rw [h]
  rfl

/-! ## The cell pool -/

/-- R50: cells taken from the head of the free-cell list. -/
theorem CellPool.writeAll_free (p : CellPool) (cs : List CellNo) (ps : List ProductEntry) :
    (p.writeAll cs ps).free = p.free := by
  induction cs generalizing p ps with
  | nil => rfl
  | cons c cs ih =>
    cases ps with
    | nil => rfl
    | cons x xs => rw [CellPool.writeAll, ih]; rfl

theorem takeCells_free (i : SlotNo) (ps : List ProductEntry) (s : State) :
    (takeCells i ps s).pool.free = s.pool.free.drop ps.length := by
  simp [takeCells, State.modSlot, State.setSlot, State.setSlots, State.setPool, CellPool.writeAll_free]

theorem takeCells_slot (i : SlotNo) (ps : List ProductEntry) (s : State) :
    (takeCells i ps s).slot i = { s.slot i with cells := (s.slot i).cells ++ s.pool.free.take ps.length } := by
  simp [takeCells, State.modSlot, State.setSlot, State.setSlots, State.setPool, State.slot, get_set_eq]

theorem takeCells_slot_ne (i j : SlotNo) (ps : List ProductEntry) (s : State) (h : j ≠ i) :
    (takeCells i ps s).slot j = s.slot j := by
  simp [takeCells, State.modSlot, State.setSlot, State.setSlots, State.setPool, State.slot, get_set_ne _ _ h]

theorem takeCells_recency (i : SlotNo) (ps : List ProductEntry) (s : State) :
    (takeCells i ps s).recency = s.recency := rfl

/-- R53: with cells enough, no slot is freed for cells. -/
theorem freeCleanFor_enough (own : SlotNo) (n : Nat) (s : State) (h : n ≤ s.pool.free.length) :
    freeCleanFor own n s = s := by
  unfold freeCleanFor
  generalize s.recency.reverse = l
  induction l with
  | nil => rfl
  | cons i l ih =>
    rw [freeClean, if_neg (by simp [Nat.not_lt.mpr h])]
    exact ih

/-! ## Lines and units -/

/-- R84: a verdict delivered to an IN_FLIGHT line. -/
theorem deliver_inFlight (n : LineNo) (v : Verdict) (s : State) (h : (s.line n).state = .inFlight) :
    deliver n v s =
      s.setLines
        (s.lines.set n.val
          { s.line n with state := .ready, ctx := none, verdict := some v, timer := none } n.isLt) := by
  simp [deliver, State.modLine, h]

/-- R84: no verdict reaches a line that is not IN_FLIGHT. -/
theorem deliver_other (n : LineNo) (v : Verdict) (s : State) (h : (s.line n).state ≠ .inFlight) :
    deliver n v s = s := by
  simp only [deliver, State.modLine, if_neg h]
  simp only [State.setLines, State.line, set_get_eq]

/-- R159: a status stored. -/
theorem storeStatus_eq (c : Status) (result : Word) (s : State) :
    storeStatus c result s =
      (s.setChange { s.change with state := .storing }).setPort
        { s.port with list := s.port.list ++ [.statusWrite s.change.blockAddr result (statusHalf c)] } := rfl

/-- R166: the end of an urgent command. -/
theorem finishUrgent_eq (r : UrgentResult) (value : Half) (s : State) :
    finishUrgent r value s =
      raise .urgentDone (s.setUrgent { s.urgent with state := .done, result := r, value := value }) := rfl

/-- R60: beginning requests keeps at most four operations in flight. -/
theorem beginOne_bounded (s : State) (h : s.port.inFlight.length ≤ 4) : (beginOne s).port.inFlight.length ≤ 4 := by
  unfold beginOne
  split
  · exact h
  · split
    · simp [State.modPort, State.setPort]
      omega
    · exact h

theorem beginRequests_bounded (s : State) (h : s.port.inFlight.length ≤ 4) :
    (beginRequests s).port.inFlight.length ≤ 4 :=
  beginOne_bounded _ (beginOne_bounded _ (beginOne_bounded _ (beginOne_bounded _ h)))

/-- R196: the engine states in which a register write is taken. -/
theorem isOpen_of_running (s : State) (h : s.running = true) : s.isOpen = true := by
  unfold State.running at h
  unfold State.isOpen
  cases he : s.engine.state <;> rw [he] at h <;> first | rfl | exact absurd h (by decide)

end Sys2Proof.Machine
end

