-- ==== Sys2Proof/Laws/Lines.lean ====
section
/-! SUPPORT. The wires of a gate line (R76): what bytes the sampled bits complete, which commands a frame's bytes stand
for, and what the device drives. -/

namespace Sys2Proof.Machine

/-- Each eighth bit completes one byte. -/
theorem bitsBytes_length (bits : List Bool) : (bitsBytes bits).length = bits.length / 8 := by
  simp [bitsBytes]

/-- Eight bits shifted in stand with the first in the highest place. -/
theorem shiftIn_eight (l : List Bool) (h : l.length = 8) (j : Fin 8) :
    (l.foldl shiftIn 0).getLsbD (7 - j.val) = l.getD j.val false := by
  match l, h with
  | [a, b, c, d, e, f, g, i], _ =>
    revert a b c d e f g i j
    decide +kernel

/-- The bits of the bytes are those sampled, in order, the most significant bit of each byte first. -/
theorem bitsBytes_bit (bits : List Bool) (k : Nat) (j : Fin 8) (h : k < bits.length / 8) :
    (byteAt (bitsBytes bits) k).getLsbD (7 - j.val) = bits.getD (8 * k + j.val) false := by
  have hk : byteAt (bitsBytes bits) k = ((bits.drop (8 * k)).take 8).foldl shiftIn 0 := by
    simp [byteAt, bitsBytes, h]
  have long : ((bits.drop (8 * k)).take 8).length = 8 := by
    rw [List.length_take, List.length_drop]
    omega
  rw [hk, shiftIn_eight _ long]
  simp [List.getD_eq_getElem?_getD, List.getElem?_drop, j.isLt]

/-- A bit is sampled where the clock rises. -/
theorem sampledBits_cons (clock : Bool) (x : LineSample) (wave : List LineSample) :
    sampledBits clock (x :: wave) =
      (if clock = false ∧ x.clock = true then [x.dataIn] else []) ++ sampledBits x.clock wave := by
  rw [sampledBits]
  split <;> rfl

/-- R85, R86: the two opcodes whose completion is an event. -/
theorem opcodeCommand_eq (n : LineNo) (o : Byte) :
    opcodeCommand n o =
      if o = 0x5A then some (.pollReplyFixed n) else if o = 0x69 then some (.repeatReplyFixed n) else none := by
  unfold opcodeCommand frameKindOf
  by_cases tap : o = 0x3C
  · subst tap
    rfl
  · rw [if_neg tap]
    by_cases poll : o = 0x5A
    · rw [if_pos poll, if_pos poll]
    · rw [if_neg poll, if_neg poll]
      by_cases again : o = 0x69
      · rw [if_pos again, if_pos again]
      · rw [if_neg again, if_neg again]

/-- The commands of a whole frame: its start, the fixing of a reply where its opcode has one, and the frame itself. -/
theorem frameEvents_eq (n : LineNo) (wave : List LineSample) :
    frameEvents n wave =
      let bytes := bitsBytes (sampledBits false wave)
      match bytes with
      | [] => [.frameStart n, .frameWithoutOpcode n]
      | o :: _ => .frameStart n :: ((opcodeCommand n o).toList ++ [frameCommand n bytes]) := by
  unfold frameEvents
  cases bitsBytes (sampledBits false wave) <;> rfl

/-- R85, R86: the bytes driven with a fixed reply. -/
theorem lineDrives_replying (n : LineNo) (s : State) (again : Bool) (reply : List Byte) (carried : Bool)
    (enabled : (s.line n).state ≠ .disabled) (h : (s.line n).frame = .replying again reply carried) (k : Nat) :
    lineDrives n 0 s = some 0 ∧ lineDrives n (k + 1) s = some (byteAt reply k) := by
  simp [lineDrives, enabled, h]

end Sys2Proof.Machine
end

