-- ==== Sys2Proof/Laws/Memory.lean ====
section
/-! SUPPORT. The memory that takes the device's write beats: what a write leaves to be read, and that every operation which
reaches the memory keeps its canonical form. -/

namespace Sys2Proof.Machine

theorem Memory.read_write (m : Memory) (a b : Nat) (v : Byte) :
    (m.write a v).read b = if b = a then some v else m.read b := by
  induction m with
  | nil => simp [Memory.write, Memory.read]
  | cons c rest ih =>
    obtain ⟨d, x⟩ := c
    by_cases h1 : a < d
    · simp [Memory.write, Memory.read, h1]
    · by_cases h2 : a = d
      · subst h2
        by_cases h3 : b = a <;> simp [Memory.write, Memory.read, h3]
      · by_cases h3 : b = d
        · subst h3
          simp [Memory.write, Memory.read, h1, h2, Ne.symm h2]
        · simp [Memory.write, Memory.read, h1, h2, h3, ih]

theorem Memory.above_write (m : Memory) (a b : Nat) (v : Byte) (hab : a < b) (h : m.above a = true) :
    (m.write b v).above a = true := by
  induction m with
  | nil => simp [Memory.write, Memory.above, hab]
  | cons c rest ih =>
    obtain ⟨d, x⟩ := c
    simp only [Memory.above, Bool.and_eq_true, decide_eq_true_eq] at h
    by_cases h1 : b < d
    · simp [Memory.write, Memory.above, h1, hab, h.1, h.2]
    · by_cases h2 : b = d
      · subst h2; simp [Memory.write, Memory.above, hab, h.2]
      · simp [Memory.write, Memory.above, h1, h2, h.1, ih h.2]

theorem Memory.above_mono (m : Memory) (a b : Nat) (hab : a < b) (h : m.above b = true) : m.above a = true := by
  induction m with
  | nil => rfl
  | cons c rest ih =>
    obtain ⟨d, x⟩ := c
    simp only [Memory.above, Bool.and_eq_true, decide_eq_true_eq] at h ⊢
    exact ⟨by omega, ih h.2⟩

/-- A write of one byte keeps the canonical form. -/
theorem Memory.wf_write (m : Memory) (a : Nat) (v : Byte) (h : m.wf = true) : (m.write a v).wf = true := by
  induction m with
  | nil => simp [Memory.write, Memory.wf, Memory.above]
  | cons c rest ih =>
    obtain ⟨d, x⟩ := c
    simp only [Memory.wf, Bool.and_eq_true] at h
    by_cases h1 : a < d
    · simp [Memory.write, Memory.wf, Memory.above, h1, h.1, h.2, Memory.above_mono rest a d h1 h.1]
    · by_cases h2 : a = d
      · subst h2; simp [Memory.write, Memory.wf, h.1, h.2]
      · have : d < a := by omega
        simp [Memory.write, Memory.wf, h1, h2, Memory.above_write rest d a v this h.1, ih h.2]

/-- A write beat keeps the canonical form. -/
theorem Memory.wf_takeBeat (m : Memory) (b : Beat) (h : m.wf = true) : (m.takeBeat b).wf = true := by
  unfold Memory.takeBeat
  generalize [0, 1, 2, 3] = ks
  induction ks generalizing m with
  | nil => exact h
  | cons k ks ih =>
    simp only [List.foldl_cons]
    exact ih _ (by split; · exact Memory.wf_write _ _ _ h
                   · exact h)

/-- A write beat reaches no address outside its four lanes. -/
theorem Memory.read_takeBeat_outside (m : Memory) (b : Beat) (a : Nat)
    (h : a < b.addr.toNat ∨ b.addr.toNat + 4 ≤ a) : (m.takeBeat b).read a = m.read a := by
  unfold Memory.takeBeat
  have step : ∀ (m : Memory) (k : Nat), k < 4 →
      (if b.lanes.getLsbD k then m.write (b.addr.toNat + k) (b.data.extractLsb' (8 * k) 8) else m).read a =
        m.read a := by
    intro m k hk
    split
    · rw [Memory.read_write, if_neg (by omega)]
    · rfl
  simp only [List.foldl_cons, List.foldl_nil]
  rw [step _ 3 (by omega), step _ 2 (by omega), step _ 1 (by omega), step _ 0 (by omega)]

/-! ## Every operation that reaches the memory -/

theorem takeBeat_canonical (b : Beat) (s : State) (h : memoryCanonical s) : memoryCanonical (takeBeat b s) := by
  unfold takeBeat
  split
  · exact Memory.wf_takeBeat _ _ h
  · exact h

theorem cutOffBeat_canonical (b : Beat) (s : State) (h : memoryCanonical s) : memoryCanonical (cutOffBeat b s) := by
  unfold cutOffBeat
  split
  · dsimp only
    split
    · exact takeBeat_canonical _ _ h
    · exact h
  · exact h

theorem leaveBeat_canonical (b : Beat) (s : State) (h : memoryCanonical s) : memoryCanonical (leaveBeat b s) := h

theorem recordFault_canonical (q : Request) (out : OpOutcome) (s : State) (h : memoryCanonical s) :
    memoryCanonical (recordFault q out s) := by
  have : (recordFault q out s).hostMem = s.hostMem := by
    unfold recordFault; rw [raise_blind hostMem_blind.toCacheBlind]; rfl
  unfold memoryCanonical
  rw [this]
  exact h

theorem endOp_canonical (i : Nat) (o : Op) (out : OpOutcome) (s : State) (h : memoryCanonical s) :
    memoryCanonical (endOp i o out s) := by
  have h' : memoryCanonical (s.modPort fun p => { p with inFlight := p.inFlight.eraseIdx i }) := h
  unfold endOp
  cases out with
  | ok => exact h'
  | timeout => exact recordFault_canonical _ _ _ (leaveBeat_canonical _ _ (cutOffBeat_canonical _ _ h'))
  | busError => exact recordFault_canonical _ _ _ (cutOffBeat_canonical _ _ h')
  | parity => exact recordFault_canonical _ _ _ (cutOffBeat_canonical _ _ h')

theorem ackBeat_canonical (o : Op) (r : BusResponse) (s : State) (h : memoryCanonical s) :
    memoryCanonical (ackBeat o r s) := by
  unfold ackBeat
  split
  · exact takeBeat_canonical _ _ h
  · exact h

theorem ackEnd_canonical (o : Op) (e : BusEnd) (s : State) (h : memoryCanonical s) :
    memoryCanonical (ackEnd o e s) := by
  unfold ackEnd
  split
  · exact ackBeat_canonical _ _ _ h
  · exact h

theorem beatResponse_canonical (i : Nat) (r : BusResponse) (s : State) (h : memoryCanonical s) :
    memoryCanonical (beatResponse i r s) := by
  unfold beatResponse
  split
  · exact h
  · split
    · exact ackBeat_canonical _ _ _ h
    · exact h

theorem lateResponse_canonical (k : Nat) (r : BusResponse) (s : State) (h : memoryCanonical s) :
    memoryCanonical (lateResponse k r s) := by
  unfold lateResponse
  split
  · exact h
  · split
    · dsimp only
      split
      · exact takeBeat_canonical _ _ h
      · exact h
    · exact h

theorem abandonOp_canonical (s : State) (o : Op) (h : memoryCanonical s) : memoryCanonical (abandonOp s o) :=
  leaveBeat_canonical _ _ (cutOffBeat_canonical _ _ h)

theorem resetPort_canonical (s : State) (h : memoryCanonical s) : memoryCanonical (resetPort s) := by
  have : ∀ (l : List Op) (s : State), memoryCanonical s → memoryCanonical (l.foldl abandonOp s) := by
    intro l
    induction l with
    | nil => intro s h; exact h
    | cons o l ih => intro s h; exact ih _ (abandonOp_canonical s o h)
  exact this _ _ h

/-- The memory at reset lists nothing. -/
theorem reset_canonical : memoryCanonical State.reset := rfl

end Sys2Proof.Machine
end

