-- ==== Sys2Proof/Laws/Time.lean ====
section
/-! SUPPORT. The passing of a millisecond: what it changes, and the events before it when nothing is due (R64, R88, R175,
R178, R183). -/

namespace Sys2Proof.Machine

/-- A raise is the Attention Controller's new value alone. -/
theorem raise_eq_raised (x : Source) (s : State) : raise x s = { s with attn := raised x s } := by
  unfold raise raised
  split <;> rfl

/-- R175, R177: what the advance of the second changes. -/
theorem advanceSecond_eq (s : State) :
    advanceSecond s =
      { s with
        clock := { s.clock with seconds := s.clock.seconds + 1, phase := 0 },
        attn :=
          if (s.clock.seconds + 1).toNat / 86400 ≠ s.clock.seconds.toNat / 86400 then raised .dayRoll s
          else s.attn } := by
  by_cases day : (s.clock.seconds + 1).toNat / 86400 = s.clock.seconds.toNat / 86400
  · rw [advanceSecond, if_pos day, if_neg (not_not_intro day)]
    rfl
  · rw [advanceSecond, if_neg day, if_pos day, raise_eq_raised]
    rfl

/-- R175, R177, R178: a millisecond changes the clock, and the attention flags at a change of day. -/
theorem passMillisecond_eq (s : State) : passMillisecond s = millisecondLater s := by
  by_cases full : 999 ≤ s.clock.phase
  · rw [passMillisecond, if_pos full, advanceSecond_eq]
    simp only [millisecondLater, full, if_true, true_and]
    rfl
  · simp only [passMillisecond, millisecondLater, full, if_false, false_and]
    rfl

/-- R175, R177, R178: the next millisecond, after the expiries that are due. -/
theorem nextMillisecond_eq (s : State) : nextMillisecond s = millisecondLater (dueEvents s) :=
  passMillisecond_eq (dueEvents s)

/-- With no timer run out, no expiry comes before the millisecond. -/
theorem dueEvents_of_nothingDue (s : State) (h : nothingDue s) : dueEvents s = s := by
  obtain ⟨ops, lines, window⟩ := h
  have timeouts : oldestTimeout s = s := by
    unfold oldestTimeout portTimeoutEvent
    split
    · rfl
    · next o ho =>
      have running : elapsedMs s o.started < 2 := ops o (List.mem_of_getElem? ho)
      exact if_neg (by rw [Op.timedOut, decide_eq_true_eq]; omega)
  have deadlines : ∀ l : List LineNo, l.foldl (fun s n => deadlineEvent n s) s = s := by
    intro l
    induction l with
    | nil => rfl
    | cons n l ih => rw [List.foldl_cons, deadlineEvent, lines n]; exact ih
  simp only [dueEvents, iterate, timeouts, deadlines, windowEvent, window, Bool.false_eq_true, if_false]

/-- R175, R178: CLOCK_ADVANCE at phase 999 is the passing of the millisecond there, in every engine state. -/
theorem clockAdvanceEvent_at_999 (s : State) (h : s.clock.phase = 999) :
    clockAdvanceEvent s = millisecondLater (dueEvents s) := by
  rw [clockAdvanceEvent, if_pos h, nextMillisecond_eq]

/-- R175, R178, R188: the idle tick is the passing of a millisecond, then the end of an initialisation under way. -/
theorem idleTick_eq (s : State) : idleTick s = initialisationEvent (millisecondLater (dueEvents s)) := by
  rw [idleTick, nextMillisecond_eq]

end Sys2Proof.Machine
end

