-- ==== Sys2Proof/Laws/Settle.lean ====
section
/-! SUPPORT. The evictions as whole states (R33, R34), the course of a shortage (R53, R54), and what the tests at the end of
an event leave undone: no reclaim (R44), no cleaner write (R40), no request that could begin (R60). -/

namespace Sys2Proof.Machine

/-! ## Evictions -/

/-- R33: a clean eviction, as one state. -/
theorem cleanEvict_eq (i : SlotNo) (s : State) : cleanEvict i s = cleanlyEvicted i s := by
  simp only [cleanEvict, returnCells, leaveRecency, cleanlyEvicted, State.modCounts, State.setCounts,
    State.setRecency, State.setPool, State.modSlot, State.setSlot, State.setSlots, State.slot, CellPool.giveBack,
    set_set_eq]

/-- R16, R34, R38: the issue of a write asks for the slot's image with the generation advanced. -/
theorem issueWrite_list (i : SlotNo) (s : State) :
    (issueWrite i s).port.list = s.port.list ++ [writeBackAsked i s] := by
  simp only [issueWrite, ask, State.modPort, State.setPort, State.modSlot, State.setSlot, State.setSlots, State.slot,
    get_set_eq, writeBackAsked, State.products, homeAddr]

/-- R34: a dirty eviction without a requester, as one state. -/
theorem dirtyEvict_eq (i : SlotNo) (s : State) : dirtyEvict i [] s = dirtilyEvicted i s := by
  simp only [dirtyEvict, evictionWrite, beginEvicting, leaveRecency, dirtilyEvicted, issueWrite, ask, State.modPort,
    State.setPort, State.modCounts, State.setCounts, State.setRecency, State.modSlot, State.setSlot, State.setSlots,
    State.slot, get_set_eq, set_set_eq, writeBackAsked, State.products, homeAddr]

/-! ## Shortage -/

/-- R54: with nothing missing, or no slot that could give cells, no eviction begins. -/
theorem evictForCells_none (need : Nat) (l : List SlotNo) (s : State)
    (h : need = 0 ∨ ∀ k, k ∈ l → ¬ yieldsCells k s) : evictForCells need l s = s := by
  induction l with
  | nil => rfl
  | cons i l ih =>
    have idle : ¬ ((0 < need && (s.slot i).dirtyEligible && !(s.slot i).cells.isEmpty) = true) := by
      rcases h with rfl | h
      · simp
      · have := h i List.mem_cons_self
        simp only [yieldsCells] at this
        simpa using fun _ e => by simpa using fun c => this ⟨e, c⟩
    rw [evictForCells, if_neg idle]
    exact ih (h.imp_right fun h k m => h k (List.mem_cons_of_mem _ m))

/-- R54: the slot nearest the tail that gives cells is evicted, and its cells count towards what is missing. -/
theorem evictForCells_next (need : Nat) (k : SlotNo) (tail rest : List SlotNo) (s : State) (missing : 0 < need)
    (idle : ∀ j, j ∈ tail → ¬ yieldsCells j s) (hk : yieldsCells k s) :
    evictForCells need (tail ++ k :: rest) s =
      evictForCells (need - (s.slot k).cells.length) rest (dirtilyEvicted k s) := by
  induction tail with
  | nil =>
    have : (0 < need && (s.slot k).dirtyEligible && !(s.slot k).cells.isEmpty) = true := by
      simp [missing, hk.1, hk.2]
    rw [List.nil_append, evictForCells, if_pos this, dirtyEvict_eq]
  | cons i tail ih =>
    have : ¬ ((0 < need && (s.slot i).dirtyEligible && !(s.slot i).cells.isEmpty) = true) := by
      have := idle i List.mem_cons_self
      simp only [yieldsCells] at this
      simpa using fun _ e => by simpa using fun c => this ⟨e, c⟩
    rw [List.cons_append, evictForCells, if_neg this]
    exact ih fun j m => idle j (List.mem_cons_of_mem _ m)

/-! ## Reclaim -/

/-- R97, R43: entering AWAIT_RECORD writes tap contexts alone. -/
theorem awaitAll_eq (ws : List Waiter) (s : State) : awaitAll ws s = s.setTaps (awaitAll ws s).taps := by
  induction ws generalizing s with
  | nil => rfl
  | cons w ws ih =>
    have one : setAwait true w s = s.setTaps (setAwait true w s).taps := by
      unfold setAwait
      split
      · split <;> rfl
      · rfl
    have step : awaitAll (w :: ws) s = awaitAll ws (setAwait true w s) := rfl
    have same : (setAwait true w s).setTaps (awaitAll ws (setAwait true w s)).taps =
        s.setTaps (awaitAll ws (setAwait true w s)).taps := by
      conv => lhs; arg 1; rw [one]
      rfl
    rw [step, ← same]
    exact ih _

/-- R43: a hand-over takes entries off the slot-wait list. -/
theorem handOver_shorter (i : SlotNo) (s : State) (h : s.slotWait ≠ []) :
    (handOver i s).slotWait.length < s.slotWait.length := by
  cases hs : s.slotWait with
  | nil => exact absurd hs h
  | cons w ws =>
    have kept : (handOver i s).slotWait = s.slotWait.filter fun v => waiterKey s v != waiterKey s w := by
      unfold handOver
      simp only [hs]
      show (awaitAll _ _).slotWait = _
      rw [awaitAll_eq]
      rfl
    rw [kept, hs, List.filter_cons_of_neg (by simp)]
    exact Nat.lt_succ_of_le (List.length_filter_le _ _)

/-- R44: one turn of reclaim takes entries off the list, unless it changes nothing. -/
theorem reclaimOne_shorter (s : State) :
    reclaimOne s = s ∨ (reclaimOne s).slotWait.length < s.slotWait.length := by
  unfold reclaimOne
  split
  · exact .inl rfl
  · next w ws hw =>
    split
    · next i _ =>
      refine .inr (handOver_shorter i (cleanEvict i s) ?_)
      rw [show (cleanEvict i s).slotWait = s.slotWait from rfl, hw]
      exact List.cons_ne_nil w ws
    · exact .inl rfl

/-- R44: reclaim goes on until a further turn would change nothing. -/
theorem reclaimRun_fixed (s : State) : reclaimOne (reclaimRun s) = reclaimRun s := by
  have enough : ∀ (n : Nat) (s : State), s.slotWait.length ≤ n →
      reclaimOne (iterate reclaimOne n s) = iterate reclaimOne n s := by
    intro n
    induction n with
    | zero =>
      intro s h
      rw [iterate, reclaimOne, List.eq_nil_of_length_eq_zero (Nat.le_zero.mp h)]
    | succ n ih =>
      intro s h
      rw [iterate]
      rcases reclaimOne_shorter s with e | lt
      · rw [e]
        have : ∀ m, iterate reclaimOne m s = s := by
          intro m
          induction m with
          | zero => rfl
          | succ m im => rw [iterate, e, im]
        rw [this, e]
      · exact ih _ (by omega)
  exact enough _ s (Nat.le_refl _)

/-- R44: after reclaim the slot-wait list is empty, or no clean eligible slot exists. -/
theorem reclaimRun_done (s : State) :
    (reclaimRun s).slotWait = [] ∨ victim Slot.cleanEligible (reclaimRun s) = none := by
  have fixed := reclaimRun_fixed s
  generalize reclaimRun s = t at fixed
  cases hw : t.slotWait with
  | nil => exact .inl rfl
  | cons w ws =>
    cases hv : victim Slot.cleanEligible t with
    | none => exact .inr rfl
    | some i =>
      have one : reclaimOne t = handOver i (cleanEvict i t) := by
        unfold reclaimOne
        simp only [hw, hv]
      have := handOver_shorter i (cleanEvict i t)
        (by rw [show (cleanEvict i t).slotWait = t.slotWait from rfl, hw]; simp)
      rw [← one, fixed, show (cleanEvict i t).slotWait = t.slotWait from rfl] at this
      exact absurd this (Nat.lt_irrefl _)

/-! ## The cleaner -/

/-- R40: a turn of the cleaner adds one to its count, unless it changes nothing. -/
theorem cleanerOne_counts (s : State) :
    cleanerOne s = s ∨ (cleanerOne s).counts.cleanerWrites = s.counts.cleanerWrites + 1 := by
  unfold cleanerOne
  split
  · split
    · exact .inr rfl
    · exact .inl rfl
  · exact .inl rfl

/-- R40: two turns are all that the cleaner can take. -/
theorem cleanerRun_fixed (s : State) : cleanerOne (cleanerRun s) = cleanerRun s := by
  rcases cleanerOne_counts s with e | one
  · rw [cleanerRun, e, e, e]
  · rcases cleanerOne_counts (cleanerOne s) with e | two
    · rw [cleanerRun, e, e]
    · have : cleanerActs (cleanerRun s) = false := by
        have : 2 ≤ (cleanerRun s).counts.cleanerWrites := by rw [cleanerRun]; omega
        simp only [cleanerActs, Bool.and_eq_false_iff, decide_eq_false_iff_not]
        exact .inl (.inr (by omega))
      rw [cleanerOne, if_neg (by simp [this])]

/-! ## The beginning of requests -/

/-- R60: up to four requests begin, as many as there is room for. -/
theorem beginRequests_eq (s : State) :
    beginRequests s =
      { s with
        port :=
          { s.port with
            list := s.port.list.drop (4 - s.port.inFlight.length),
            inFlight :=
              s.port.inFlight ++ (s.port.list.take (4 - s.port.inFlight.length)).map (begunAt s.clock.timeBase) } } := by
  have turns : ∀ (n : Nat) (s : State), s.port.list = [] ∨ 4 ≤ s.port.inFlight.length + n →
      iterate beginOne n s =
        { s with
          port :=
            { s.port with
              list := s.port.list.drop (4 - s.port.inFlight.length),
              inFlight :=
                s.port.inFlight ++
                  (s.port.list.take (4 - s.port.inFlight.length)).map (begunAt s.clock.timeBase) } } := by
    intro n
    induction n with
    | zero =>
      intro s h
      rw [iterate]
      rcases h with h | h
      · simp only [h, List.drop_nil, List.take_nil, List.map_nil, List.append_nil]
        conv => lhs; rw [show s = { s with port := { s.port with list := s.port.list } } from rfl, h]
      · rw [Nat.sub_eq_zero_of_le (by omega)]
        simp
    | succ n ih =>
      intro s h
      rw [iterate]
      cases hl : s.port.list with
      | nil =>
        have : beginOne s = s := by unfold beginOne; simp only [hl]
        rw [this, ih s (.inl hl), hl]
      | cons q rest =>
        by_cases room : s.port.inFlight.length < 4
        · have one : beginOne s =
              { s with
                port :=
                  { s.port with
                    list := rest, inFlight := s.port.inFlight ++ [begunAt s.clock.timeBase q] } } := by
            unfold beginOne
            simp only [hl, if_pos room]
            rfl
          rw [one, ih _ (by
            simp only [List.length_append, List.length_cons, List.length_nil]
            rcases h with h | h
            · rw [hl] at h; exact absurd h (by simp)
            · exact .inr (by omega))]
          obtain ⟨m, hm⟩ : ∃ m, 4 - s.port.inFlight.length = m + 1 := ⟨3 - s.port.inFlight.length, by omega⟩
          simp only [List.length_append, List.length_cons, List.length_nil]
          rw [hm, show 4 - (s.port.inFlight.length + (0 + 1)) = m by omega]
          simp
        · have : beginOne s = s := by unfold beginOne; simp only [hl, if_neg room]
          rw [this, ih s (.inr (by omega)), hl]
  exact turns 4 s (.inr (by omega))

/-- R60: after the beginning of requests the list is empty or four operations are in flight. -/
theorem beginRequests_done (s : State) :
    (beginRequests s).port.list = [] ∨ 4 ≤ (beginRequests s).port.inFlight.length := by
  rw [beginRequests_eq]
  simp only [List.drop_eq_nil_iff, List.length_append, List.length_map, List.length_take]
  omega

end Sys2Proof.Machine
end

