-- ==== Sys2Proof/Laws/Window.lean ====
section
/-! SUPPORT. The word of ATTN_COALESCE under any layout of its fields (R184, log entry 10): what a read shows is what the
Attention Controller holds; and which word a read of a numbered register answers with (R196). -/

namespace Sys2Proof.Machine

/-- Bit `i` of the number in a field is the word's bit at that place. -/
theorem takeField_testBit (f : Config.Field) (w : Word) (i : Nat) :
    (takeField f w).testBit i = (decide (i < f.width) && w.getLsbD (f.pos + i)) := by
  simp only [takeField, Nat.testBit_mod_two_pow, BitVec.testBit_toNat, BitVec.getLsbD_ushiftRight]

/-- Bit `i` of a word with one field filled. -/
theorem putField_getLsbD (f : Config.Field) (n i : Nat) :
    (putField f n).getLsbD i = (decide (i < 32 ∧ f.pos ≤ i ∧ i - f.pos < f.width) && n.testBit (i - f.pos)) := by
  rw [Bool.eq_iff_iff]
  simp only [putField, BitVec.getLsbD_shiftLeft, BitVec.getLsbD_ofNat, Nat.testBit_mod_two_pow, Bool.and_eq_true,
    decide_eq_true_eq, Bool.not_eq_true', decide_eq_false_iff_not]
  constructor
  · rintro ⟨⟨h, h'⟩, -, h'', h3⟩
    exact ⟨⟨h, by omega, h''⟩, h3⟩
  · rintro ⟨⟨h, h', h''⟩, h3⟩
    exact ⟨⟨h, by omega⟩, by omega, h'', h3⟩

/-- A field reads back the number placed in it. -/
theorem takeField_put_same {f : Config.Field} {bits n : Nat} (hf : fieldFits f bits = true) (hn : n < 2 ^ bits)
    (i : Nat) : (decide (i < f.width) && (putField f n).getLsbD (f.pos + i)) = n.testBit i := by
  simp only [fieldFits, Bool.and_eq_true, decide_eq_true_eq] at hf
  rw [putField_getLsbD, Nat.add_sub_cancel_left]
  by_cases h : i < f.width
  · simp [h, show f.pos + i < 32 by omega]
  · have : n < 2 ^ i := Nat.lt_of_lt_of_le hn (Nat.pow_le_pow_right (by omega) (by omega))
    simp [h, Nat.testBit_lt_two_pow this]

/-- A field sees nothing of a number placed in a field apart from it. -/
theorem takeField_put_apart {f g : Config.Field} (h : apart f g = true ∨ apart g f = true) (n i : Nat) :
    (decide (i < f.width) && (putField g n).getLsbD (f.pos + i)) = false := by
  simp only [apart, Bool.or_eq_true, decide_eq_true_eq] at h
  rw [putField_getLsbD]
  by_cases hi : i < f.width
  · simp only [Bool.and_eq_false_iff, decide_eq_false_iff_not]
    omega
  · simp [hi]

/-- The layout in force is one. -/
theorem coalesceLayout_sound : layoutSound coalesceLayout = true := by
  unfold coalesceLayout
  split
  · assumption
  · decide

/-- R184: a word of ATTN_COALESCE holds what the Attention Controller holds, field by field. -/
theorem coalesceWord_fields (a : Attention) (ht : a.threshold ≤ 8) (hw : a.window ≤ 1023) (hc : a.count ≤ 7) :
    coalesceThreshold (coalesceWord a) = a.threshold ∧ coalesceWindow (coalesceWord a) = a.window ∧
      coalesceHolding (coalesceWord a) = a.holding ∧ coalesceCount (coalesceWord a) = a.count := by
  have h := coalesceLayout_sound
  simp only [layoutSound, Bool.and_eq_true] at h
  obtain ⟨⟨⟨⟨⟨⟨⟨⟨⟨f1, f2⟩, f3⟩, f4⟩, a12⟩, a13⟩, a14⟩, a23⟩, a24⟩, a34⟩ := h
  have hs : (if a.holding = coalesceLayout.holdingIsOne then 1 else 0) < 2 ^ 1 := by split <;> decide
  have bits : ∀ f i, (takeField f (coalesceWord a)).testBit i =
      ((decide (i < f.width) && (putField coalesceLayout.threshold a.threshold).getLsbD (f.pos + i)) ||
        (decide (i < f.width) && (putField coalesceLayout.window a.window).getLsbD (f.pos + i)) ||
        (decide (i < f.width) &&
          (putField coalesceLayout.state (if a.holding = coalesceLayout.holdingIsOne then 1 else 0)).getLsbD
            (f.pos + i)) ||
        (decide (i < f.width) && (putField coalesceLayout.count a.count).getLsbD (f.pos + i))) := by
    intro f i
    rw [takeField_testBit, coalesceWord, BitVec.getLsbD_or, BitVec.getLsbD_or, BitVec.getLsbD_or]
    simp only [Bool.and_or_distrib_left]
  refine ⟨?_, ?_, ?_, ?_⟩
  · apply Nat.eq_of_testBit_eq
    intro i
    rw [coalesceThreshold, bits, takeField_put_same f1 (by omega), takeField_put_apart (.inl a12),
      takeField_put_apart (.inl a13), takeField_put_apart (.inl a14)]
    simp
  · apply Nat.eq_of_testBit_eq
    intro i
    rw [coalesceWindow, bits, takeField_put_same f2 (by omega), takeField_put_apart (.inr a12),
      takeField_put_apart (.inl a23), takeField_put_apart (.inl a24)]
    simp
  · have : takeField coalesceLayout.state (coalesceWord a) =
        if a.holding = coalesceLayout.holdingIsOne then 1 else 0 := by
      apply Nat.eq_of_testBit_eq
      intro i
      rw [bits, takeField_put_same f3 hs, takeField_put_apart (.inr a13), takeField_put_apart (.inr a23),
        takeField_put_apart (.inl a34)]
      simp
    rw [coalesceHolding, this]
    cases a.holding <;> cases coalesceLayout.holdingIsOne <;> rfl
  · apply Nat.eq_of_testBit_eq
    intro i
    rw [coalesceCount, bits, takeField_put_same f4 (by omega), takeField_put_apart (.inr a14),
      takeField_put_apart (.inr a24), takeField_put_apart (.inr a34)]
    simp

/-! ## The registers that come in numbers (Table 12.7) -/

/-- The remainder that a table index takes is the index. -/
theorem ofNat_eq_index {n : Nat} [NeZero n] (i : Fin n) {k : Nat} (h : k = i.val) : Fin.ofNat n k = i := by
  subst h
  exact Fin.ext (Nat.mod_eq_of_lt i.isLt)

/-- A read of word `j` of a line's registers. -/
theorem regRead_line (s : State) (n : LineNo) (j : Fin 8) :
    regRead s (0x400 + 32 * n.val + 4 * j.val) = lineRegWord n j.val s := by
  have := n.isLt
  have := j.isLt
  unfold regRead
  repeat rw [if_neg (by omega)]
  rw [if_pos (by omega), ofNat_eq_index n (by omega)]
  congr 1
  omega

/-- A read of word `j` of a range rule. -/
theorem regRead_range (s : State) (n : Fin 16) (j : Fin 4) :
    regRead s (0x100 + 16 * n.val + 4 * j.val) = rangeRegWord n j.val s := by
  have := n.isLt
  have := j.isLt
  unfold regRead
  rw [if_neg (by omega), if_pos (by omega), ofNat_eq_index n (by omega)]
  congr 1
  omega

/-- A read of the lowest word of a BLOCK_MARKS entry, and of its copied word. -/
theorem regRead_mark (s : State) (m : Fin 16) :
    regRead s (0x200 + 8 * m.val) = lowestWord (.blockMark m) s ∧
      regRead s (0x204 + 8 * m.val) = s.copies.blockMark.get m := by
  have := m.isLt
  unfold regRead
  constructor
  all_goals
    repeat rw [if_neg (by omega)]
    rw [if_pos (by omega), ofNat_eq_index m (by omega)]
  · exact if_pos (by omega)
  · exact if_neg (by omega)

/-- A read of the lowest word of a TAPQ_STATUS entry, and of its copied word. -/
theorem regRead_tapq (s : State) (c : CtxNo) :
    regRead s (0x600 + 8 * c.val) = lowestWord (.tapqStatus c) s ∧
      regRead s (0x604 + 8 * c.val) = s.copies.tapqStatus.get c := by
  have := c.isLt
  unfold regRead
  constructor
  all_goals
    repeat rw [if_neg (by omega)]
    rw [if_pos (by omega), ofNat_eq_index c (by omega)]
  · exact if_pos (by omega)
  · exact if_neg (by omega)

/-- A read of word `j` of the Peek Window, its header first. -/
theorem regRead_peek (s : State) (j : Fin 47) : regRead s (0x300 + 4 * j.val) = peekWord s.peek j.val := by
  have := j.isLt
  unfold regRead
  repeat rw [if_neg (by omega)]
  rw [if_pos (by omega)]
  congr 1
  omega

end Sys2Proof.Machine
end

