-- ==== Sys2Proof/Tests/Slice0.lean ====
section
/-! SUPPORT. The model's own tests: the checks on operands refuse ill-formed commands, a few values that the spec prints,
and for each statement with hypotheses a concrete state and operands that meet them (theorems `meets_…`). -/

namespace Sys2Proof.Tests

open Sys2Proof.Machine

-- One kernel evaluation at a time: their threads together would pass the memory limit.
set_option Elab.async false

/-! ## Ill-formed commands are refused, one for each check -/

theorem test_lineEnable_needs_enabled : (Instr.lineEnable 3 0x001E0000).wellFormed = false := by decide
theorem test_lineDisable_needs_disabled : (Instr.lineDisable 3 0x001E0001).wellFormed = false := by decide
theorem test_registerWrite_beyond_the_window : (Instr.registerWrite 0x660 0).wellFormed = false := by decide
theorem test_registerWrite_not_aligned : (Instr.registerWrite 0x01E 0).wellFormed = false := by decide
theorem test_urgentUnknownCode_names_a_command : (Instr.urgentUnknownCode 5).wellFormed = false := by decide
theorem test_unknownOpcode_is_known : (Instr.unknownOpcode 0 0x5A).wellFormed = false := by decide
theorem test_place_beyond_four : (Instr.portTimeout 4).wellFormed = false := by decide
theorem test_write_place_beyond_four :
    (Instr.evictionWriteComplete 4 .timeout).wellFormed = false ∧
      (Instr.flushWriteComplete 4 .timeout).wellFormed = false ∧
      (Instr.abandonedReadEnd 4 .timeout).wellFormed = false ∧ (Instr.statusWriteComplete 4).wellFormed = false := by
  decide
theorem test_last_word_of_bad_parity : (Instr.fetchComplete 0 0x00000001 0xF).wellFormed = false := by decide
theorem test_fetchFail_that_does_not_fail :
    (Instr.fetchFail 0 (.response (.data 1 0xE))).wellFormed = false := by decide
theorem test_blockReadFail_that_does_not_fail :
    (Instr.blockReadFail 0 (.response .ack)).wellFormed = false := by decide
theorem test_statusWriteFail_that_does_not_fail :
    (Instr.statusWriteFail 0 (.response .ack)).wellFormed = false := by decide
theorem test_beatResponse_with_an_error : (Instr.beatResponse 0 .error).wellFormed = false := by decide

/-- The block commands share one check on the last word. -/
theorem test_block_commands_check_the_last_word :
    ∀ c ∈ [Instr.nop, .enroll, .amend, .adjust, .addProduct, .removeProduct, .block, .unblock, .retire, .flush,
        .flushAll, .loadClass, .loadFares, .copyActive, .switchTariff, .setRange, .blockCheckFailed,
        .resumeRereadDone],
      (c 4 1 0xE).wellFormed = false ∧ (c 3 1 0xF).wellFormed = false ∧ (c 3 1 0xE).wellFormed = true := by
  decide +kernel

/-! ## Values that the spec prints -/

/-- R15: over the ASCII characters 1 to 9 the check gives 29B1h. -/
theorem test_crc : crc [0x31, 0x32, 0x33, 0x34, 0x35, 0x36, 0x37, 0x38, 0x39] = 0x29B1#16 := by decide +kernel

/-- Table 1.6. -/
theorem test_keys :
    keyOf 0 (mkIdent 0x2A17 0x0051C3E4) = 0xC3E4#16 ∧ keyOf 4 (mkIdent 0x2A17 0x0051C3E4) = 0x73E4#16 ∧
      keyOf 8 (mkIdent 0x2A17 0x0051C3E4) = 0x17E4#16 ∧ keyOf 8 (mkIdent 0x2A17 0x0093C3E4) = 0x17E4#16 := by
  decide +kernel

/-- R12: with Home Base 03000000h, home record C3E4h begins at 03C3E400h. -/
theorem test_home_address :
    homeAddr (State.reset.setEngine { Engine.reset with homeBase := 0x03000000 }) 0xC3E4 = 0x03C3E400#32 := by
  decide +kernel

/-- No row of the table gives bits, so no word spells a command. -/
theorem test_no_word_spells_a_command : decodeTableWord 8 0 = none ∧ decodeTableWord 32 0xFFFFFFFF = none := by decide

/-! ## States -/

/-- The serial, identifier and account key of card `k`. -/
def ser (k : Nat) : BitVec 40 := BitVec.ofNat 40 (0xA02B50 + k)
def card (k : Nat) : Ident := mkIdent 0x0313 (ser k)
def key (k : Nat) : Key := keyOf 4 (card k)

def recordOf (k : Nat) : Record :=
  { Record.empty 9 with ident := card k, state := .active, balance := 500, tokens := 3 }

def resident (k : Nat) : Slot :=
  { Slot.unused with state := .resident, key := key k, record := recordOf k }

/-- RUNNING, with line 2 IDLE. -/
def live : State :=
  ((State.reset.setEngine { Engine.reset with state := .running, keyShape := 4, homeBase := 0x12000000 }).setClock
        { seconds := 1700000000, phase := 999, timeBase := 1000 }).modLine 2 fun l =>
    { l with config := { l.config with enabled := true }, state := .idle, lastSeq := some 54 }

def inState (x : EngineState) (s : State) : State := s.setEngine { s.engine with state := x }

/-- Card 0 clean in slot 0, card 1 dirty in slot 1, key 2 FETCHING, key 3 EVICTING, card 4 with a write in flight, card 5
with wb_fault. -/
def cached : State :=
  ((((((live.setSlot 0 (resident 0)).setSlot 1 { resident 1 with dirty := true }).setSlot 2
            { Slot.unused with state := .fetching, key := key 2 }).setSlot 3
          { resident 3 with state := .evicting }).setSlot 4 { resident 4 with writeInFlight := true }).setSlot 5
      { resident 5 with wbFault := true }).setRecency [0, 1, 4, 5]

def withLine (st : LineState) (s : State) : State := s.modLine 2 fun l => { l with state := st }

def aVerdict (why : Reason) : Verdict :=
  { sequence := 54, outcome := .refuse, reason := why, fare := 0, balance := 0, tag := 0, rides := 0, epoch := 0 }

/-- No slot FREE; the two victims that remain are slots 0 and 1. -/
def noFree (s : State) : State :=
  s.setSlots (s.slots.map fun x => if x.state == .free then { x with state := .fetching } else x)

def withOp (o : Op) (s : State) : State := s.modPort fun p => { p with inFlight := [o] }

/-- The words of a block. -/
def blockWords (command : Byte) (x : Ident) (flags : Byte) (payload : List Byte) : List Word :=
  bytesWords
    ([0x07, 0x90, 0, 0, 0, 0, 0, 0, 0, 0, command, BitVec.ofNat 8 payload.length] ++ identBytes x ++ [flags] ++
      payload ++ List.replicate ((4 - payload.length % 4) % 4) 0)

def readOp (ws : List Word) : Op := { request := .blockRead 0x6000 false, started := 1000, words := ws, acked := 0 }

/-- The Change Unit READING, its BLOCK READ in flight and one word short. -/
def reading (ws : List Word) (s : State) : State :=
  withOp (readOp ws.dropLast) (s.modChange fun u => { u with state := .reading, blockAddr := 0x6000 })

def lastWord (ws : List Word) : Word := ws.getLastD 0

def isReady (c : ChangeCommand) (ws : List Word) (s : State) : Bool :=
  decide (blockArrives false 0 (lastWord ws) (oddParity (lastWord ws)) s = some (readOp ws)) &&
    match checkBlock (parseBlock ws) with
    | .ok d => d == c
    | .error _ => false

def isRecordReady (c : ChangeCommand) (ws : List Word) (k : SlotNo) (s : State) : Bool :=
  isReady c ws s && decide (findResident (blockKey (readOp ws) s) s = some k) &&
    decide (identityCheck c (parseBlock ws).ident (s.slot k).record = none)

theorem ready {c : ChangeCommand} {ws : List Word} {s : State} (h : isReady c ws s = true) :
    blockReady c 0 (lastWord ws) (oddParity (lastWord ws)) s (readOp ws) := by
  rw [isReady, Bool.and_eq_true] at h
  refine ⟨of_decide_eq_true h.1, ?_⟩
  have h2 := h.2
  show checkBlock (parseBlock ws) = .ok c
  revert h2
  cases checkBlock (parseBlock ws) with
  | ok d => intro h2; rw [eq_of_beq h2]
  | error e => intro h2; cases h2

theorem readyRecord {c : ChangeCommand} {ws : List Word} {k : SlotNo} {s : State} (h : isRecordReady c ws k s = true) :
    recordReady c 0 (lastWord ws) (oddParity (lastWord ws)) k s (readOp ws) := by
  rw [isRecordReady, Bool.and_eq_true, Bool.and_eq_true] at h
  exact ⟨ready h.1.1, of_decide_eq_true h.1.2, of_decide_eq_true h.2⟩

/-! ## The machine, engine and clock -/

theorem meets_StepRunsFrontCommand :
    (live.withPending [.run, .stop]).pending = Instr.run :: [.stop] ∧ live.pending = [] ∧ nothingDue live ∧
      999 ≤ live.clock.phase ∧ live.engine.state ≠ .initializing ∧
      nothingDue (live.setClock { live.clock with phase := 998 }) := by unfold nothingDue; decide +kernel

theorem meets_ReleaseAndInitialisation :
    State.reset.engine.state = .held ∧ live.engine.state ≠ .held ∧
      (inState .initializing State.reset).engine.state = .initializing := by decide +kernel

theorem meets_RunStopAndDrainEnd :
    (inState .stopped live).engine.state = .stopped ∧ live.engine.state ≠ .stopped ∧ live.engine.state = .running ∧
      (inState .stopped live).engine.state ≠ .running ∧
      drainDue (live.setEngine { live.engine with state := .draining, phase := .emptying }) = true := by
  decide +kernel

/-- A drain about to evict, with a slot of each sort. -/
def ending : State := cached.setEngine { cached.engine with state := .draining, phase := .ending }

theorem meets_OnlyAnAccessOutsideTheWindowStops :
    0x660 ≤ 0x660 ∧ 0x65E % 4 ≠ 0 ∧ (0x65C < 0x660 ∧ 0x65C % 4 = 0) := by decide

/-- A drain evicting what becomes idle, and one with nothing left. -/
def emptying : State := cached.setEngine { cached.engine with state := .draining, phase := .emptying }
def drained : State := live.setEngine { live.engine with state := .draining, phase := .emptying }

theorem meets_EvictAllTreatsEverySlot :
    evictAllDue ending = true ∧ ending.slotWait = [] ∧ (ending.slot 3).state ≠ .resident ∧
      (ending.slot 5).wbFault = true ∧ (ending.slot 0).cleanEligible = true ∧ (ending.slot 1).dirtyEligible = true ∧
      (ending.slot 4).state = .resident ∧ (ending.slot 4).wbFault = false ∧ (ending.slot 4).writeInFlight = true := by
  decide +kernel

theorem meets_KeyShapeAndHomeBaseWrites :
    (inState .stopped live).engine.state = .stopped ∧ (∀ i, ((inState .stopped live).slot i).state = .free) ∧
      (8 : Word).toNat = (8 : Fin 9).val ∧ 8 < (9 : Word).toNat ∧ (cached.slot 0).state ≠ .free ∧
      (0xFF000000 : Word).extractLsb' 0 24 = 0 ∧ (0x00800000 : Word).extractLsb' 0 24 ≠ 0 := by decide +kernel

theorem meets_ClockAdvance :
    live.clock.phase = 999 ∧ nothingDue live ∧ (live.setClock { live.clock with phase := 998 }).clock.phase ≠ 999 := by
  unfold nothingDue; decide +kernel

/-- The last millisecond of a day, while the device initialises. -/
def lastOfDay : State := inState .initializing (live.setClock { live.clock with seconds := 86399 })

theorem meets_ClockAdvance_initializing :
    lastOfDay.clock.phase = 999 ∧ nothingDue lastOfDay ∧ lastOfDay.isOpen = false ∧
      (lastOfDay.clock.seconds + 1).toNat / 86400 ≠ lastOfDay.clock.seconds.toNat / 86400 := by
  unfold nothingDue; decide +kernel

/-! ## Attention and the register window -/

/-- CHG_DONE and WATCH pending at level 2, DAY_ROLL pending at level 0. -/
def flags : State := live.setAttn { Attention.reset with pending := 0x441, levels := 0x002002 }

theorem meets_CauseReadTakesTheHighestSource :
    (∀ x, live.attn.isPending x = true → live.attn.level x = 0) ∧ flags.attn.isPending .chgDone = true ∧
      flags.attn.isPending .watch = true ∧ 1 ≤ flags.attn.level .chgDone ∧
      ∀ y, flags.attn.isPending y = true →
        flags.attn.level y < flags.attn.level .chgDone ∨
          (flags.attn.level y = flags.attn.level .chgDone ∧ Source.chgDone.code ≤ y.code) := by
  refine ⟨?_, by decide +kernel, by decide +kernel, by decide +kernel, ?_⟩ <;> intro x <;> cases x <;> decide +kernel

/-- For AttnPendingReadAndWrite and AttnLevelsAndInterruptOutput. -/
theorem meets_open_and_closed : live.isOpen = true ∧ State.reset.isOpen = false := by decide +kernel

def held (count : Nat) : State :=
  live.setAttn
    { Attention.reset with threshold := 3, window := 100, holding := true, count := count, windowStart := 900 }

def statusOp (acked : Nat) : Op :=
  { request := .statusWrite 0x6000 77 0x300, started := 998, words := [], acked := acked }

def storing (s : State) : State :=
  withOp (statusOp 1) (s.modChange fun u => { u with state := .storing, block := { u.block with flagI := true } })

theorem meets_CompletionsAreCoalesced :
    live.isOpen = true ∧ (1 ≤ 8 ∧ 8 ≤ 8 ∧ 1023 ≤ 1023) ∧ (held 2).isOpen = true ∧ (held 2).attn.holding = true ∧
      (held 2).attn.window ≤ elapsedMs (held 2) (held 2).attn.windowStart ∧ 0 < (held 2).attn.count ∧
      (held 0).attn.holding = true ∧ (held 0).attn.window ≤ elapsedMs (held 0) (held 0).attn.windowStart ∧
      (held 0).attn.count = 0 ∧ live.attn.holding = false ∧ (held 1).attn.count + 1 < (held 1).attn.threshold ∧
      (held 2).attn.threshold ≤ (held 2).attn.count + 1 ∧ (storing live).op 0 = some (statusOp 1) ∧
      (statusOp 1).acked = 1 ∧ (storing live).change.block.flagI = true ∧ coalescingBounded (held 2) := by
  unfold coalescingBounded; decide +kernel

theorem meets_RegisterWritesWhenOpen :
    (inWindow 0x3FC = true ∧ inWindow 0x600 = true ∧ inWindow 0x404 = true ∧ 0x404 % 32 = 0x04 ∧
        0x5FC % 32 = 0x1C) ∧
      live.isOpen = true ∧ ((0x00000700 : Word).extractLsb' 8 8).toNat = (7 : Fin 8).val ∧
      7 < ((0x00000800 : Word).extractLsb' 8 8).toNat := by decide +kernel

theorem meets_ReadsShowTheRegisters :
    (live.setCtx 11 (some (tapContext 2 9 .entry (card 0) live))).ctx 11
        = some (tapContext 2 9 .entry (card 0) live) ∧
      (live.setMarks (live.marks.set 15 (some (card 9)))).marks.get 15 = some (card 9) := by decide +kernel

theorem meets_RegisterWritesGiveCommands :
    4 < (5 : Word).toNat ∧ State.reset.isOpen = false ∧ inWindow 0x65C = true ∧ inWindow 0x004 = true := by
  decide +kernel

/-! ## Gate lines -/

theorem meets_LineConfigurationWrites :
    live.isOpen = true ∧ (0x00010001 : Word).extractLsb' 16 8 ≠ 0 ∧
      ((0x00010101 : Word).extractLsb' 8 2).toNat = Mode.entry.code ∧
      ((0x00010201 : Word).extractLsb' 8 2).toNat = Mode.exit.code ∧
      ((0x00010301 : Word).extractLsb' 8 2).toNat = Mode.both.code ∧
      State.reset.isOpen = false ∧ (0x00000301 : Word).extractLsb' 16 8 = 0 ∧
      (0x00010001 : Word).extractLsb' 8 2 = 0 ∧ (live.line 3).state = .disabled ∧ (live.line 2).state ≠ .disabled := by
  decide +kernel

def check (d : Byte) (k : Nat) : Byte := xorBytes (tapBytes 55 d 0x0313 (ser k))

theorem goodEntry (k : Nat) : tapFrameGood 55 1 0x0313 (ser k) (check 1 k) .entry := ⟨rfl, rfl⟩

/-- Line 2 READY with a verdict of the given reason: made from no tap when it is FRAME_ERROR. -/
def holding (why : Reason) (s : State) : State :=
  s.modLine 2 fun l => { l with state := .ready, verdict := some (aVerdict why) }

def frameError (s : State) : State := holding .frameError s

theorem meets_BadAndEchoedTaps :
    receives 2 (withLine .inFlight live) ∧ receives 2 live ∧ receives 2 (withLine .taken live) ∧
      receives 2 (frameError live) ∧ check 1 0 + 1 ≠ xorBytes (tapBytes 55 1 0x0313 (ser 0)) ∧
      ((3 : Byte) ≠ 1 ∧ (3 : Byte) ≠ 2) ∧ ((withLine .inFlight live).line 2).state = .inFlight ∧
      (live.line 2).state = .idle ∧ ((withLine .taken live).line 2).state = .taken ∧
      ((frameError live).line 2).state = .ready ∧ ((frameError live).line 2).holdsFrameError = true ∧
      receives 2 (holding .blocked live) ∧ ((holding .blocked live).line 2).state = .ready ∧
      ((holding .blocked live).line 2).holdsFrameError = false ∧ (live.line 2).lastSeq = some 54 ∧
      (live.line 2).holdsFrameError = false ∧
      tapFrameGood 54 2 0x0313 (ser 0) (xorBytes (tapBytes 54 2 0x0313 (ser 0))) .exit := by
  unfold receives tapFrameGood; decide +kernel

theorem meets_OverrunsAreCountedAndFlagged :
    (∃ d, tapFrameGood 55 1 0x0313 (ser 0) (check 1 0) d) ∧ receives 2 (withLine .inFlight live) ∧
      ((withLine .inFlight live).line 2).state = .inFlight ∧ ((withLine .inFlight live).line 2).lastSeq ≠ some 55 ∧
      receives 2 (holding .blocked live) ∧ ((holding .blocked live).line 2).state = .ready ∧
      ((holding .blocked live).line 2).holdsFrameError = false ∧
      ((holding .blocked live).line 2).lastSeq ≠ some 55 :=
  ⟨⟨_, goodEntry 0⟩, by unfold receives; decide +kernel⟩

def rule (a : RangeAction) (k : Nat) : RangeRule := { level := 1, base := card k, exponent := 0, action := a, cls := 5 }

def full : State := live.setTaps (Vector.replicate 12 (some (tapContext 5 1 .entry (card 9) live)))

/-- Cards 0 and 1 under a DENY and a WATCH rule, card 0 and card 9 with a block mark. -/
def ruled : State :=
  (cached.setRanges ((cached.ranges.set 0 (rule .deny 0)).set 15 (rule .watch 1))).setMarks
    ((cached.marks.set 0 (some (card 1))).set 15 (some (card 9)))

theorem meets_TapsAnsweredAtOnce :
    tapFrameGood 55 1 0x0313 (ser 0) (check 1 0) .entry ∧ takesTap 2 55 (inState .stopped live) ∧
      (inState .stopped live).running = false ∧ takesTap 2 55 full ∧ full.running = true ∧ (∀ c, full.ctx c ≠ none) ∧
      takesTap 2 55 ruled ∧ ruled.running = true ∧ ruled.ctx 0 = none ∧
      (winningRule (card 0) ruled = some 0 ∧ (ruled.ranges.get 0).action = .deny) ∧
      (ruleMark (card 1) ruled = some .watch ∧ ruled.marks.get 0 = some (card 1)) ∧
      (ruleMark (card 9) ruled = some .none ∧ ruled.marks.get 15 = some (card 9)) := by
  unfold tapFrameGood takesTap receives; decide +kernel

/-- An outcome of the resolver is an acceptance. -/
def accepts (e : Except Reason Accepted) : Bool :=
  match e with
  | .ok _ => true
  | .error _ => false

theorem accepted {e : Except Reason Accepted} (h : accepts e = true) : ∃ a, e = .ok a := by
  cases e with
  | ok a => exact ⟨a, rfl⟩
  | error e => cases h

theorem refused {e : Except Reason Accepted} (h : accepts e = false) : ∃ why, e = .error why := by
  cases e with
  | ok a => cases h
  | error e => exact ⟨e, rfl⟩

/-- Card 1 in slot 1 is BLOCKED. -/
def blockedCard : State := cached.modSlot 1 fun x => { x with record := { x.record with state := .blocked } }

/-- Card 0 in slot 0, within since ten minutes, with a PERIOD PASS in cell 3; every class's max trip is two hours. -/
def pass : ProductEntry :=
  { kind := .periodPass, zoneMask := 0xFF, tag := 7, firstDay := 0, lastDay := 0xFFFF, rides := 0, uses := 0 }

def travelling : State :=
  let s := cached.setTariff
    { cached.tariff with
      bankA := { Bank.reset with classes := Vector.replicate 8 { ClassEntry.reset with maxTrip := 7200 } } }
  (s.setPool (({ cached.pool with free := [7, 8] } : CellPool).write 3 pass)).modSlot 0 fun x =>
    { x with cells := [3], record := { x.record with trip := .within, entryStamp := 1699999400 } }

def contextOf (d : Direction) (k : Nat) (s : State) : TapContext := { tapContext 2 55 d (card k) s with mark := .none }

/-- The place of the product that pays, when the outcome is an acceptance that one paid. -/
def paidPlace (e : Except Reason Accepted) : Option Nat :=
  match e with
  | .ok a => a.paid.map (·.1)
  | .error _ => none

theorem meets_TapResolvedAtOnce :
    (∃ a, resolve (viewAt 0 (contextOf .entry 0 cached) cached) (card 0) (cached.slot 0).record = .ok a) ∧
      (∃ why,
        resolve (viewAt 1 (contextOf .entry 1 blockedCard) blockedCard) (card 1) (blockedCard.slot 1).record
          = .error why) ∧
      (takesTap 2 55 cached ∧ cached.running = true ∧ cached.ctx 0 = none ∧ ruleMark (card 0) cached = some .none ∧
        (∀ k, cached.marks.get k ≠ some (card 0)) ∧
        findResident (keyOf cached.engine.keyShape (card 0)) cached = some 0) ∧
      (takesTap 2 55 blockedCard ∧ ruleMark (card 1) blockedCard = some .none ∧
        (∀ k, blockedCard.marks.get k ≠ some (card 1)) ∧
        findResident (keyOf blockedCard.engine.keyShape (card 1)) blockedCard = some 1) ∧
      (takesTap 2 55 travelling ∧ tapFrameGood 55 2 0x0313 (ser 0) (check 2 0) .exit ∧
        findResident (keyOf travelling.engine.keyShape (card 0)) travelling = some 0 ∧
        paidPlace
            (resolve (viewAt 0 (contextOf .exit 0 travelling) travelling) (card 0) (travelling.slot 0).record)
          = some 0) :=
  ⟨accepted (by decide +kernel), refused (by decide +kernel),
    by unfold takesTap receives tapFrameGood; decide +kernel⟩

/-- Context 0 in use: the free one of the lowest number is 1. -/
def oneTap (s : State) : State := s.setCtx 0 (some (tapContext 5 1 .entry (card 2) live))

theorem meets_TapWaitsOnItsSlot :
    takesTap 2 55 (oneTap cached) ∧ (oneTap cached).running = true ∧ lowestFreeContext 1 (oneTap cached) ∧
      (ruleMark (card 2) (oneTap cached) = some .none ∧ ∀ k, (oneTap cached).marks.get k ≠ some (card 2)) ∧
      (ruleMark (card 3) (oneTap cached) = some .none ∧ ∀ k, (oneTap cached).marks.get k ≠ some (card 3)) ∧
      (findSlot (keyOf (oneTap cached).engine.keyShape (card 2)) (oneTap cached) = some 2 ∧
        ((oneTap cached).slot 2).state ≠ .resident) ∧
      (findSlot (keyOf (oneTap cached).engine.keyShape (card 3)) (oneTap cached) = some 3 ∧
        ((oneTap cached).slot 3).state ≠ .resident) := by
  unfold takesTap receives lowestFreeContext; decide +kernel

/-- A full cache with a clean victim, with a dirty victim alone, and with none. -/
def fullClean : State := noFree (oneTap cached)
def fullDirty : State := fullClean.setRecency [1, 4, 5]
def fullNone : State := fullClean.setRecency [4, 5]

/-- The slot-wait list of a full cache: a tap of card 8 in context 1, then the change request. -/
def queue (s : State) : State :=
  (s.setCtx 1 (some { tapContext 3 1 .entry (card 8) live with awaitRecord := false })).setSlotWait [.tap 1, .change]
def queued : State := queue fullClean

/-- Reclaim, evict-all, drain end and cleaner write are each the first test due, and none is. -/
theorem meets_TestsAtTheEndOfAnEvent :
    reclaimDue queued = true ∧ (reclaimDue ending = false ∧ evictAllDue ending = true) ∧ drainDue drained = true ∧
      (reclaimDue fullClean = false ∧ cleanerDue fullClean = true) ∧ onlyPortDue live := by
  unfold onlyPortDue Slot.drainsNow; decide +kernel

/-- The last two clauses, and the states that the second speaks of. -/
theorem meets_TestsAtTheEndOfAnEvent_slots :
    (fullClean.running = true ∧ fullClean.slotWait = [] ∧ (fullClean.slot 1).dirtyEligible = true) ∧
      (emptying.engine.state = .draining ∧ emptying.engine.phase = .emptying ∧ emptying.slotWait = [] ∧
        (emptying.slot 0).cleanEligible = true ∧ (emptying.slot 1).dirtyEligible = true ∧
        (emptying.slot 5).dirtyEligible = false) ∧
      ((settle fullClean).running = true ∧ (settle emptying).engine.state = .draining ∧
        (settle emptying).engine.phase = .emptying) := by decide +kernel

/-- A TAP of card `k` on line 2 misses, and context `c` is the one it would keep. -/
def misses (k : Nat) (c : CtxNo) (s : State) : Prop :=
  takesTap 2 55 s ∧ s.running = true ∧ lowestFreeContext c s ∧ winningRule (card k) s = none ∧
    ruleMark (card k) s = some .none ∧ (∀ j, s.marks.get j ≠ some (card k)) ∧
    findSlot (keyOf s.engine.keyShape (card k)) s = none

theorem meets_TapMisses :
    (misses 8 1 (oneTap cached) ∧ (oneTap cached).slotWait = [] ∧ firstFree (oneTap cached) = some 6) ∧
      (misses 8 1 fullClean ∧ fullClean.slotWait = [] ∧ firstFree fullClean = none ∧
        victim Slot.cleanEligible fullClean = some 0) ∧
      (misses 8 1 fullDirty ∧ fullDirty.slotWait = [] ∧ firstFree fullDirty = none ∧
        victim Slot.cleanEligible fullDirty = none ∧ victim Slot.dirtyEligible fullDirty = some 1) ∧
      (misses 8 1 fullNone ∧ fullNone.slotWait = [] ∧ firstFree fullNone = none ∧
        victim Slot.cleanEligible fullNone = none ∧ victim Slot.dirtyEligible fullNone = none) := by
  refine ⟨?_, ?_, ?_, ?_⟩ <;> (unfold misses takesTap receives lowestFreeContext; decide +kernel)

/-- With entries on the slot-wait list: one carries card 8's key, none carries card 10's. -/
theorem meets_TapMisses_behind_others :
    (misses 8 2 queued ∧ .tap 1 ∈ queued.slotWait ∧ Waiter.tap 1 ≠ .tap 2 ∧
        waiterKey queued (.tap 1) = keyOf queued.engine.keyShape (card 8)) ∧
      (misses 10 2 (queue fullNone) ∧
        (∀ w, w ∈ (queue fullNone).slotWait →
          w ≠ .tap 2 ∧ waiterKey (queue fullNone) w ≠ keyOf (queue fullNone).engine.keyShape (card 10)) ∧
        firstFree (queue fullNone) = none ∧ victim Slot.cleanEligible (queue fullNone) = none) := by
  refine ⟨?_, ?_⟩ <;> (unfold misses takesTap receives lowestFreeContext; decide +kernel)

def withFrame (f : Frame) (s : State) : State := s.modLine 2 fun l => { l with frame := f }

theorem meets_Replies :
    receives 2 (frameError live) ∧ ((frameError live).line 2).state = .ready ∧
      ((frameError live).line 2).verdict = some (aVerdict .frameError) ∧
      ((withLine .inFlight live).line 2).state = .inFlight ∧ receives 2 (withLine .inFlight live) ∧
      (live.line 2).state = .idle ∧ receives 2 live ∧
      (let s := withLine .taken (frameError live)
       receives 2 s ∧ (s.line 2).state = .taken ∧ (s.line 2).verdict = some (aVerdict .frameError)) ∧
      ((withFrame (.replying true [1] true) live).line 2).frame = .replying true [1] true ∧
      ((withFrame (.replying false [] false) live).line 2).frame = .replying false [] false := by
  unfold receives; decide +kernel

/-- Bits that complete the opcode of a POLL, of a REPEAT, of a TAP, and none. -/
theorem meets_FramesAndTheirBytes_bits :
    let bytes (b : Byte) (n : Nat) := bitsBytes (((List.range 8).map (wireBit b)).take n)
    bytes 0x5A 8 = [0x5A] ∧ bytes 0x69 8 = [0x69] ∧ bytes 0x3C 8 = [0x3C] ∧ bytes 0x5A 7 = [] ∧ 0 < 8 / 8 := by
  decide +kernel

theorem meets_FramesAndTheirBytes :
    (live.line 2).frame = .quiet ∧ receives 2 live ∧
      ((0x3B : Byte) ≠ 0x3C ∧ (0x3B : Byte) ≠ 0x5A ∧ (0x3B : Byte) ≠ 0x69) ∧
      ((List.replicate 9 (0 : Byte)).length < 10 ∧ (List.replicate 15 (0 : Byte)).length < 16 ∧
        16 ≤ (List.replicate 16 (0 : Byte)).length) ∧
      ((withFrame .ignored live).line 2).frame = .ignored ∧ ((withFrame .ignored live).line 2).state ≠ .disabled ∧
      ((withFrame .receiving live).line 2).frame = .receiving ∧
      ((withFrame (.replying false [1] true) live).line 2).frame = .replying false [1] true := by
  unfold receives; decide +kernel

/-- Line 2's tap in context 0 waits on slot 2, and its deadline runs out now. -/
def late : State :=
  ((cached.modLine 2 fun l => { l with state := .inFlight, ctx := some 0, timer := some ⟨900, 100⟩ }).setCtx 0
        (some { tapContext 2 54 .entry (card 2) cached with awaitRecord := true })).modSlot 2 fun x =>
    { x with waiting := [.tap 0] }

theorem meets_DeadlineExpiry :
    (late.line 2).state = .inFlight ∧ (late.line 2).timer = some ⟨900, 100⟩ ∧ 100 ≤ elapsedMs late 900 ∧
      (late.line 2).ctx = some 0 ∧
      late.ctx 0 = some { tapContext 2 54 .entry (card 2) cached with awaitRecord := true } ∧
      (late.line 2).lastSeq = some 54 := by decide +kernel

/-! ## Resolution -/

/-- An entry at a BOTH line: passback 60 s, overdraft 100, one token a minute up to 3. -/
def view : TapView :=
  { now := 1700000000, epoch := 4, mode := .both, direction := .entry, group := 2, line := 2, watch := false,
    products := [], fares := Bank.reset,
    entry :=
      { ClassEntry.reset with
        passback := 60, overdraft := 100, unmatched := 600, burst := 3, refill := 60, maxTrip := 7200,
        minEntry := 500 } }

def exitView : TapView := { view with direction := .exit }

/-- Inside since `ago` seconds. -/
def inside (ago : Word) : Record := { recordOf 0 with trip := .within, entryStamp := 1700000000 - ago }

theorem meets_EntryStages :
    ((Record.empty 0).state = .empty ∧ (recordOf 0).ident ≠ card 1) ∧
      ({ recordOf 0 with state := .blocked }.state = .blocked ∧ (recordOf 0).ident = card 0) ∧
      ((recordOf 0).state = .active ∧ { exitView with mode := .entry }.mode = .entry ∧ exitView.direction = .exit) ∧
      (view.mode ≠ .exit ∧ view.direction = .entry ∧ (inside 59).trip = .within ∧
        ((view.now.toNat : Int) - (inside 59).entryStamp.toNat).toNat < view.entry.passback.toNat) ∧
      ((inside 60).trip = .within ∧
        view.entry.passback.toNat ≤ ((view.now.toNat : Int) - (inside 60).entryStamp.toNat).toNat ∧
        -(view.entry.overdraft.toNat : Int) ≤ (inside 60).balance - view.entry.unmatched.toNat) ∧
      ((refill view (closeTrip view (recordOf 0))).tokens.val ≠ 0 ∧
        (view.entry.minEntry.toNat : Int) ≤ (recordOf 0).balance - 0) := by decide +kernel

/-- An entry refused LOW_BALANCE for its open trip, VELOCITY, and LOW_BALANCE for its balance; a pass for the group. -/
theorem meets_EntryStages_refusals :
    ({ inside 60 with balance := 499 }.balance - (view.entry.unmatched.toNat : Int)
        < -(view.entry.overdraft.toNat : Int)) ∧
      ({ recordOf 0 with tokens := 0, refillMark := view.now }.trip ≠ .within ∧
        (refill view (closeTrip view { recordOf 0 with tokens := 0, refillMark := view.now })).tokens.val = 0) ∧
      ((refill view (closeTrip view { recordOf 0 with balance := 499 })).tokens.val ≠ 0 ∧ entryPass view = false ∧
        { recordOf 0 with balance := 499 }.balance - 0 < (view.entry.minEntry.toNat : Int)) ∧
      (pass ∈ [pass] ∧ pass.kind = .periodPass ∧ validToday view pass ∧
        pass.zoneMask.getLsbD view.group.val = true) := by unfold validToday; decide +kernel

def spent (tokens : Fin 16) (mark : Word) : Record := { recordOf 0 with tokens := tokens, refillMark := mark }

theorem meets_TokensRefill :
    1 ≤ view.entry.refill.toNat ∧ view.entry.burst.toNat ≤ 15 ∧
      view.now.toNat < (spent 0 1700000001).refillMark.toNat ∧ view.entry.burst.toNat ≤ (spent 3 0).tokens.val ∧
      (spent 2 1700000000).refillMark.toNat ≤ view.now.toNat ∧
      (spent 2 1700000000).tokens.val < view.entry.burst.toNat := by decide +kernel

/-- The pass with its kind and rides changed. -/
def bundle (rides : Half) : ProductEntry := { pass with kind := .rideBundle, rides := rides }

/-- The pass pays before the bundle listed ahead of it; the first bundle with a ride pays where there is no pass. -/
theorem meets_PricedExits_products :
    ([bundle 3, pass, pass][1]? = some pass ∧ pass.kind = .periodPass ∧ coversBoth exitView (inside 7199) pass ∧
        (bundle 3).kind ≠ .periodPass) ∧
      ([bundle 0, bundle 3][1]? = some (bundle 3) ∧ (bundle 3).kind = .rideBundle ∧
        coversBoth exitView (inside 7199) (bundle 3) ∧ (bundle 3).rides ≠ 0 ∧ (bundle 0).rides = 0) := by
  unfold coversBoth validToday; decide +kernel

theorem meets_PricedExits :
    (recordOf 0).state = .active ∧ exitView.direction = .exit ∧ exitView.mode ≠ .entry ∧
      (matchedExit { exitView with products := [pass] } (inside 7199) = true ∧
        payingProduct { exitView with products := [pass] } (inside 7199) = some (0, { pass with uses := 1 })) ∧
      (matchedExit exitView (inside 7200) = false ∧
        -(exitView.entry.overdraft.toNat : Int) ≤ (inside 7200).balance - exitView.entry.unmatched.toNat) ∧
      (payingProduct exitView (inside 7199) = none ∧ matchedExit exitView (inside 7199) = true ∧
        -(exitView.entry.overdraft.toNat : Int) ≤ (inside 7199).balance - 0) ∧
      (499 : Int) - exitView.entry.unmatched.toNat < -(exitView.entry.overdraft.toNat : Int) := by decide +kernel

/-! ## The cache and the port -/

/-- The image of card 2 with one product, in words. -/
def image : List Word := bytesWords (encodeImage (recordOf 2) [pass])

def fetchOp (n : Nat) : Op :=
  { request := .fetch 2 (key 2) 0x12000000, started := 998, words := image.take n, acked := 0 }

def fetching (s : State) : State := withOp (fetchOp 45) (s.setPool { s.pool with free := [7, 8] })

theorem fetchingAt {n : Nat} {s : State} (h : s.op 0 = some (fetchOp n)) : fetchAt 0 2 (fetchOp n) s :=
  ⟨h, _, _, rfl⟩

theorem meets_FetchCompletes :
    fetchAwaitsLast 0 2 (fetchOp 45) (fetching cached) ∧
      decodeImage (wordsBytes ((fetchOp 45).words ++ [lastWord image])) = .valid (recordOf 2) [pass] ∧
      [pass].length ≤ (fetching cached).pool.free.length ∧ (fetching cached).pool.free.Nodup ∧
      ((oneTap cached).ctx 0 = some (tapContext 5 1 .entry (card 2) live) ∧
        ((oneTap cached).slot 0).state = .resident) ∧
      ((late.ctx 0 = some { tapContext 2 54 .entry (card 2) cached with awaitRecord := true }) ∧
        (late.slot 0).state = .resident ∧ (late.line 2).state = .inFlight) :=
  ⟨⟨by decide +kernel, rfl, by decide +kernel, _, _, rfl⟩, by decide +kernel⟩

/-- The block of `ws` taken and its request made, on the slot that the block's key names. -/
def requested (ws : List Word) (s : State) : State :=
  let u := reading ws s
  { u with
    change :=
      { u.change with
        block := parseBlock ws, heldLink := (parseBlock ws).link, key := blockKey (readOp ws) u },
    port := { u.port with inFlight := u.port.inFlight.eraseIdx 0 } }

theorem meets_FetchThatGivesNoRecord :
    fetchAt 0 2 (fetchOp 45) (fetching late) ∧ fetchAt 0 2 (fetchOp 3) (withOp (fetchOp 3) late) ∧
      (fetchOp 45).words.length = 45 ∧ (fetching late).slotWait = [] ∧ ((fetching late).slot 2).waiting = [.tap 0] ∧
      (fetching late).ctx 0 = some { tapContext 2 54 .entry (card 2) cached with awaitRecord := true } ∧
      ((fetching late).line 2).state = .inFlight ∧
      decodeImage (wordsBytes ((fetchOp 45).words ++ [lastWord image])) = .valid (recordOf 2) [pass] ∧
      decodeImage (wordsBytes ((fetchOp 45).words ++ [1])) = .damaged ∧
      ((fetching late).setPool { live.pool with free := [] }).pool.free.length < [pass].length ∧
      (fetchOp 3).endBy late (.response .error) = some (fetchOp 3, .busError) ∧
      (fetchOp 3).endBy late (.response (.data 1 0xF)) = some (fetchOp 3, .parity) ∧
      (fetchOp 3).endBy late .timeout = some (fetchOp 3, .timeout) ∧
      ((late.modSlot 2 fun x => { x with waiting := [.change] }).slot 2).waiting = [.change] :=
  ⟨fetchingAt (by decide +kernel), fetchingAt (by decide +kernel), by decide +kernel⟩

/-- Slot `i` owns a cell, and none is free. -/
def holdsCell (i : SlotNo) (s : State) : State :=
  (s.modSlot i fun x => { x with cells := [3] }).setPool { live.pool with free := [] }

/-- Short of the one cell, with a clean victim that owns one, with a dirty one, and with neither. -/
theorem meets_fetch_shortage :
    ([pass].length ≤ 1 ∧ (holdsCell 0 (fetching late)).pool.free.length < [pass].length ∧
        cellVictim 2 (holdsCell 0 (fetching late)) = some 0) ∧
      (cellVictim 2 (holdsCell 1 (fetching late)) = none ∧ yieldsCells 1 (holdsCell 1 (fetching late)) ∧
        (∀ j, j ∈ [(5 : SlotNo), 4] → ¬ yieldsCells j (holdsCell 1 (fetching late)))) ∧
      (cellVictim 2 (holdsCell 5 (fetching late)) = none ∧
        ∀ k, k ∈ (holdsCell 5 (fetching late)).recency → ¬ yieldsCells k (holdsCell 5 (fetching late))) := by
  unfold yieldsCells; decide +kernel

def writeOp (i : SlotNo) : Op :=
  { request := .writeBack i (key i.val) 0x12000000 image, started := 998, words := [], acked := 45 }

def writing (i : SlotNo) (f : Slot → Slot) : State := withOp (writeOp i) (cached.modSlot i f)

theorem writingAwaits {i : SlotNo} {s : State} (h : s.op 0 = some (writeOp i)) : writeAwaitsLast 0 i (writeOp i) s :=
  ⟨h, rfl, _, _, _, rfl⟩

theorem meets_EvictionWriteEnds :
    writeAwaitsLast 0 3 (writeOp 3) (writing 3 id) ∧ ((writing 3 id).slot 3).writeInFlight = false ∧
      ((writing 3 id).slot 3).writeReqs = [] ∧ (writing 3 id).slotWait = [] ∧
      ((writing 3 id).slot 3).rescued = false ∧
      ((writing 3 fun x => { x with rescued := true }).slot 3).rescued = true ∧
      (queue (writing 3 id)).slotWait = [.tap 1, .change] ∧ ((queue (writing 3 id)).slot 3).rescued = false ∧
      (queue (writing 3 id)).ctx 1 = some { tapContext 3 1 .entry (card 8) live with awaitRecord := false } ∧
      waiterKey (queue (writing 3 id)) (.tap 1) = key 8 ∧
      (writeOp 3).endBy (writing 3 id) (.response .error) = some (writeOp 3, .busError) ∧
      (writeOp 3).endBy (writing 3 id) .timeout = some (writeOp 3, .timeout) ∧ (queue fullNone).slotWait ≠ [] ∧
      victim Slot.cleanEligible (queue fullNone) = none ∧ queued.slotWait ≠ [] ∧
      victim Slot.cleanEligible queued = some 0 :=
  ⟨writingAwaits (by decide +kernel), by decide +kernel⟩

/-- Slot 4 owed an eviction behind its write. -/
def owed (dirty rescued : Bool) : State :=
  writing 4 fun x => { x with state := .evicting, dirty := dirty, rescued := rescued, nextReqs := [.drain] }

def flushingAll (outstanding : Nat) : ChangeUnit := { live.change with state := .storing, outstanding := outstanding }

theorem meets_FlushTypeWriteEnds :
    (writeAwaitsLast 0 4 (writeOp 4) (writing 4 id) ∧ writeAwaitsLast 0 4 (writeOp 4) (owed false false)) ∧
      (1 < (flushingAll 2).outstanding ∧ (flushingAll 1).outstanding = 1) ∧
      (((writing 4 id).slot 4).writeInFlight = true ∧ ((writing 4 id).slot 4).state = .resident ∧
        ((writing 4 id).slot 4).nextReqs = [] ∧ ((writing 4 id).slot 4).dirty = false ∧
        ((writing 4 fun x => { x with nextReqs := [.urgent], dirty := true }).slot 4).nextReqs ≠ [] ∧
        ((writing 4 fun x => { x with nextReqs := [.urgent], dirty := true }).slot 4).dirty = true ∧
        (writeOp 4).endBy (writing 4 id) (.response .error) = some (writeOp 4, .busError) ∧
        (writeOp 4).endBy (writing 4 id) .timeout = some (writeOp 4, .timeout)) ∧
      (((owed false false).slot 4).state = .evicting ∧ ((owed false false).slot 4).writeInFlight = true ∧
        ((owed false false).slot 4).writeReqs = [] ∧ ((owed false false).slot 4).dirty = false ∧
        ((owed false false).slot 4).rescued = false ∧ (owed false false).slotWait = [] ∧
        ((owed false true).slot 4).rescued = true ∧ ((owed true false).slot 4).dirty = true) :=
  ⟨⟨writingAwaits (by decide +kernel), writingAwaits (by decide +kernel)⟩, by decide +kernel⟩

theorem meets_CleanerAndReclaim :
    cleanerActs fullClean = true ∧ victim Slot.dirtyEligible fullClean = some 1 ∧ fullClean.slotWait = [] ∧
      queued.slotWait = [.tap 1, .change] ∧ victim Slot.cleanEligible queued = some 0 ∧
      queued.ctx 1 = some { tapContext 3 1 .entry (card 8) live with awaitRecord := false } ∧
      waiterKey queued (.tap 1) = key 8 ∧ .tap 0 ∉ queued.slotWait := by decide +kernel

theorem meets_PortBeginsAndBeatsGoOn :
    ((live.modPort fun p =>
        { p with list := [.blockRead 0 false], inFlight := [readOp [], readOp [], readOp []] }).port.inFlight.length
        < 4) ∧
      live.port.list = [] ∧ 4 ≤ [readOp [], readOp [], readOp [], readOp []].length ∧
      (withOp (fetchOp 44) cached).op 0 = some (fetchOp 44) ∧ (fetchOp 44).words.length < 45 ∧
      (withOp { writeOp 4 with acked := 44 } cached).op 0 = some { writeOp 4 with acked := 44 } := by decide +kernel

/-- Beats of a BLOCK READ with a payload of 184 bytes and of one with 185, and of a STATUS WRITE. -/
theorem meets_PortBeginsAndBeatsGoOn_blocks :
    ((withOp (readOp [1, 2, 0xB8000000, 4]) live).op 0 = some (readOp [1, 2, 0xB8000000, 4]) ∧
        ((0xB8000000 : Word).extractLsb' 24 8).toNat ≤ 184 ∧ [1, 2, 0xB8000000, 4, (5 : Word)].length < 5 + 187 / 4) ∧
      (184 < ((0xB9000000 : Word).extractLsb' 24 8).toNat ∧ 5 ≤ [1, 2, 0xB9000000, 4, (5 : Word)].length) ∧
      ((withOp (statusOp 0) live).op 0 = some (statusOp 0) ∧ (statusOp 0).acked = 0 ∧ (statusOp 1).acked = 1) := by
  decide +kernel

theorem meets_PortTimesOut :
    (withOp { readOp [] with started := 999 } live).op 0 = some { readOp [] with started := 999 } ∧
      elapsedMs live 999 < 2 ∧ (withOp { readOp [] with started := 998 } live).op 0
        = some { readOp [] with started := 998 } ∧ 2 ≤ elapsedMs live 998 ∧
      (withOp (fetchOp 3) cached).op 0 = some (fetchOp 3) ∧ (fetchOp 3).started = 998 ∧
      (writing 4 id).op 0 = some (writeOp 4) ∧ (storing live).op 0 = some (statusOp 1) := by decide +kernel

def aBeat : Beat := { addr := 0x40, write := true, data := 0xAABBCCDD, lanes := 15 }

theorem meets_LateResponsesAreDiscarded :
    (live.modPort fun p => { p with stray := [aBeat] }).port.stray[0]? = some aBeat ∧ aBeat.answeredBy .ack = true ∧
      aBeat.answeredBy .error = true ∧ { aBeat with write := false }.answeredBy (.data 1 0) = true := by
  decide +kernel

/-! ## The Change Unit -/

def unit (x : ChangeState) : State := live.modChange fun u => { u with state := x, last := 0x40, lastValid := true }

theorem meets_StartAndResume :
    (unit .idle).running = true ∧ (unit .idle).change.state = .idle ∧ (unit .halted).change.state = .halted ∧
      (unit .suspended).change.state = .suspended ∧ (unit .idle).change.lastValid = true := by decide +kernel

theorem meets_ControlsOfAListInProgress :
    (unit .reading).isOpen = true ∧ (unit .storing).change.busy = true ∧ (unit .storing).change.stop ≠ .abort ∧
      (unit .reading).change.state = .reading ∧ (unit .reading).change.abandoned = false ∧
      (unit .waiting).change.state = .waiting ∧ (unit .storing).change.state = .storing ∧
      (unit .suspended).isOpen = true ∧ (unit .suspended).change.state = .suspended ∧
      (unit .halted).change.state = .halted ∧
      (inState .stopped (unit .idle)).isOpen = true ∧ (inState .stopped (unit .idle)).running = false ∧
      (unit .halted).change.busy = false ∧ live.change.state = .idle ∧ live.change.lastValid = false ∧
      ((unit .storing).modChange fun u => { u with stop := .abort }).change.stop = .abort ∧
      ((unit .reading).modChange fun u => { u with abandoned := true }).change.abandoned = true := by decide +kernel

def nopWords : List Word := blockWords 0x00 0 0 (List.replicate 184 0)
/-- A payload length of 185, an unknown command, and an AMEND of one byte. -/
def longWords : List Word := (blockWords 0x00 0 0 []).set 2 0xB9000000
def unknownWords : List Word := blockWords 0x0B 0 0 []
def shortWords : List Word := blockWords 0x02 0 0 [1]

theorem meets_NopAndFailedChecks :
    (blockArrives false 0 (lastWord nopWords) (oddParity (lastWord nopWords)) (reading nopWords live)
          = some (readOp nopWords) ∧
        (parseBlock nopWords).command = 0 ∧ (parseBlock nopWords).length.toNat ≤ 184) ∧
      (blockArrives false 0 (lastWord longWords) (oddParity (lastWord longWords)) (reading longWords live)
          = some (readOp longWords) ∧
        184 < (parseBlock longWords).length.toNat) ∧
      (blockArrives false 0 (lastWord unknownWords) (oddParity (lastWord unknownWords)) (reading unknownWords live)
          = some (readOp unknownWords) ∧
        commandOf (parseBlock unknownWords).command = none) ∧
      (blockArrives false 0 (lastWord shortWords) (oddParity (lastWord shortWords)) (reading shortWords live)
          = some (readOp shortWords) ∧
        commandOf (parseBlock shortWords).command = some .amend ∧ lengthFits .amend (parseBlock shortWords) = false)
      := by decide +kernel

/-- LOAD CLASS of index `n` with a percent of 100 and a burst of `burst`. -/
def classWords (n : Nat) (burst : Byte) : List Word :=
  blockWords 0x11 (BitVec.ofNat 56 n) 0 [0, 0, 0, 0, 100, 0, 0, 0, 0, 0, burst, 0, 1, 0, 0x10, 0x0E]

def faresWords : List Word := blockWords 0x12 0 0 (List.replicate 128 5)

theorem meets_LoadsWriteTheShadowBank :
    isReady .loadClass (classWords 7 15) (reading (classWords 7 15) live) = true ∧
      (parseBlock (classWords 7 15)).index = (7 : ClassNo).val ∧
      (classEntryOf (parseBlock (classWords 7 15)).payload).inRange = true ∧
      isReady .loadClass (classWords 8 15) (reading (classWords 8 15) live) = true ∧
      7 < (parseBlock (classWords 8 15)).index ∧
      isReady .loadClass (classWords 0 16) (reading (classWords 0 16) live) = true ∧
      (classEntryOf (parseBlock (classWords 0 16)).payload).inRange = false ∧
      isReady .loadFares faresWords (reading faresWords live) = true := by decide +kernel

def copyWords : List Word := blockWords 0x13 0 0 []
def switchWords : List Word := blockWords 0x14 0 0 []
def switchPayload : List Word := blockWords 0x14 0 0 [1]

theorem meets_CopyActiveAndSwitchTariff :
    (isReady .copyActive copyWords (reading copyWords live) = true ∧ (parseBlock copyWords).command = 0x13#8 ∧
        (parseBlock copyWords).length = 0) ∧
      (isReady .switchTariff switchWords (reading switchWords live) = true ∧
        (parseBlock switchWords).command = 0x14#8 ∧ (parseBlock switchWords).length = 0) ∧
      (blockArrives false 0 (lastWord switchPayload) (oddParity (lastWord switchPayload)) (reading switchPayload live)
          = some (readOp switchPayload) ∧
        (parseBlock switchPayload).length ≠ 0) := by decide +kernel

/-- SET RANGE of rule `n` with a size exponent. -/
def rangeWords (n : Nat) (exponent : Byte) : List Word :=
  blockWords 0x10 (BitVec.ofNat 56 n) 0 ([3, exponent, 1, 7] ++ identBytes (card 1) ++ [0])

theorem meets_SetRangeAndTheWinningRule :
    isReady .setRange (rangeWords 15 40) (reading (rangeWords 15 40) live) = true ∧
      (parseBlock (rangeWords 15 40)).index = (15 : Fin 16).val ∧
      (rangeRuleOf (parseBlock (rangeWords 15 40)).payload).isSome = true ∧
      isReady .setRange (rangeWords 16 40) (reading (rangeWords 16 40) live) = true ∧
      15 < (parseBlock (rangeWords 16 40)).index ∧
      isReady .setRange (rangeWords 0 41) (reading (rangeWords 0 41) live) = true ∧
      rangeRuleOf (parseBlock (rangeWords 0 41)).payload = none ∧
      (rule .watch 1).covers (card 1) = true ∧ (rule .watch 1).covers (card 0) = false ∧
      winningRule (card 1) ruled = some 15 := by decide +kernel

/-- A record command for card `k`. -/
def amendWords (k : Nat) (mask cls : Byte) : List Word := blockWords 0x02 (card k) 0 [mask, cls]
def adjustWords (k : Nat) (by_ : Word) : List Word := blockWords 0x03 (card k) 0 (wordBytes by_)
def enrollWords (k : Nat) (cls n : Byte) (balance : Word) (ps : List ProductEntry) : List Word :=
  blockWords 0x01 (card k) 0 ([cls, n, 0, 0] ++ wordBytes balance ++ ps.flatMap encodeProduct)
def addWords (k : Nat) : List Word := blockWords 0x04 (card k) 0 (encodeProduct pass)
def removeWords (k : Nat) : List Word := blockWords 0x05 (card k) 0 (halfBytes 7)
def bareWords (command : Byte) (k : Nat) : List Word := blockWords command (card k) 0 []

/-- Slot 0 holds another card's record, or an EMPTY one with a block mark for card 0, or card 0's with one product. -/
def clash : State := cached.modSlot 0 fun x => { x with record := { x.record with ident := card 7 } }
def emptied : State :=
  (cached.modSlot 0 fun x => { x with record := Record.empty 4 }).setPool { cached.pool with free := [7, 8] }
def owning (cells : List CellNo) : State :=
  (cached.modSlot 0 fun x => { x with cells := cells }).setPool
    (({ cached.pool with free := [7, 8] } : CellPool).write 3 pass)

/-- The nine record commands for card 0, with their words. -/
def recordBlocks : List (ChangeCommand × List Word) :=
  [(.amend, amendWords 0 15 7), (.adjust, adjustWords 0 1), (.addProduct, addWords 0), (.removeProduct, removeWords 0),
    (.block, bareWords 6 0), (.unblock, bareWords 7 0), (.retire, bareWords 8 0), (.flush, bareWords 9 0)]

theorem meets_RecordCommandsNotApplied :
    (isReady .amend (amendWords 2 15 7) (reading (amendWords 2 15 7) cached) = true ∧ .amend ∈ recordCommands ∧
        findSlot (key 2) cached = some 2 ∧ (cached.slot 2).state = .fetching) ∧
      (isReady .adjust (adjustWords 3 1) (reading (adjustWords 3 1) cached) = true ∧
        findSlot (key 3) cached = some 3 ∧ (cached.slot 3).state = .evicting ∧ (cached.slot 3).rescued = false) ∧
      (isReady .enroll (enrollWords 0 7 0 0 []) (reading (enrollWords 0 7 0 0 []) cached) = true ∧
        findResident (key 0) cached = some 0 ∧ (cached.slot 0).record.state ≠ .empty ∧
        (cached.slot 0).record.ident = card 0 ∧ (clash.slot 0).record.ident ≠ card 0) ∧
      (recordBlocks.all fun b => isReady b.1 b.2 (reading b.2 clash) && isReady b.1 b.2 (reading b.2 emptied)) = true ∧
      (emptied.slot 0).record.state = .empty := by decide +kernel

/-- The five courses of a record command whose key has no slot. -/
theorem meets_RecordCommandsNotApplied_courses :
    let ws := enrollWords 8 7 0 0 []
    let lost (s : State) : Bool :=
      isReady .enroll ws (reading ws s) && decide (findSlot (blockKey (readOp ws) (reading ws s)) (reading ws s) = none)
    (lost cached = true ∧ cached.slotWait = [] ∧ firstFree cached = some 6) ∧
      (lost fullClean = true ∧ fullClean.slotWait = [] ∧ firstFree fullClean = none ∧
        victim Slot.cleanEligible fullClean = some 0) ∧
      (lost fullDirty = true ∧ firstFree fullDirty = none ∧ victim Slot.cleanEligible fullDirty = none ∧
        victim Slot.dirtyEligible fullDirty = some 1) ∧
      (lost fullNone = true ∧ victim Slot.dirtyEligible fullNone = none) ∧
      (lost queued = true ∧ Waiter.tap 1 ∈ queued.slotWait ∧ Waiter.tap 1 ≠ .change ∧
        waiterKey (reading ws queued) (.tap 1) = blockKey (readOp ws) (reading ws queued)) := by decide +kernel

/-- For FetchCompletes: the change request served at slot 0, refused, applied, and a RETIRE that leaves the slot
EVICTING. -/
theorem meets_FetchCompletes_change :
    let amend := amendWords 0 15 7
    let retire := bareWords 8 0
    (commandOf (requested amend clash).change.block.command = some .amend ∧ .amend ∈ recordCommands ∧
        ((requested amend clash).slot 0).state = .resident ∧
        identityCheck .amend (requested amend clash).change.block.ident ((requested amend clash).slot 0).record
          = some .idMismatch) ∧
      (commandOf (requested amend cached).change.block.command = some .amend ∧
        ((requested amend cached).slot 0).state = .resident ∧ isReady .amend amend (reading amend cached) = true ∧
        findResident (blockKey (readOp amend) (reading amend cached)) (reading amend cached) = some 0) ∧
      ((serve 0 [.change] (requested amend cached)).slot 0).state = .resident ∧
      ((serve 0 [.change] (requested retire cached)).slot 0).state ≠ .resident := by decide +kernel

theorem meets_EnrollWritesTheRecord :
    (isRecordReady .enroll (enrollWords 0 7 1 16777215 [pass]) 0 (reading (enrollWords 0 7 1 16777215 [pass]) emptied)
          = true ∧
        (wordAt (parseBlock (enrollWords 0 7 1 16777215 [pass])).payload 4).toInt = 16777215 ∧
        decodeProducts (parseBlock (enrollWords 0 7 1 16777215 [pass])).payload 8 1 = some [pass] ∧
        [pass].length ≤ emptied.pool.free.length ∧ emptied.pool.free.Nodup ∧ (emptied.slot 0).cells = []) ∧
      (isRecordReady .enroll (enrollWords 0 8 0 0 []) 0 (reading (enrollWords 0 8 0 0 []) emptied) = true ∧
        isRecordReady .enroll (enrollWords 0 7 0 16777216 []) 0 (reading (enrollWords 0 7 0 16777216 []) emptied)
          = true ∧
        isRecordReady .enroll (enrollWords 0 7 0 0xFFFF0000 []) 0 (reading (enrollWords 0 7 0 0xFFFF0000 []) emptied)
          = true ∧
        (wordAt (wordBytes 0xFFFF0000) 0).toInt < -65535) ∧
      ((enrollArgs (parseBlock (enrollWords 0 7 1 0 [pass]))).isSome = true ∧ live.pool.free.length < [pass].length ∧
        cellVictim 0 (emptied.setPool live.pool) = none) := by decide +kernel

/-- Kind bytes that are no code, in the second entry of an ENROLL and in an ADD PRODUCT. -/
theorem meets_EnrollWritesTheRecord_and_AddProduct_kinds :
    let odd : List Byte := [3, 0, 0, 0, 0, 0, 0, 0, 0, 0, 0, 0]
    let enroll := blockWords 0x01 (card 0) 0 ([7, 2, 0, 0] ++ wordBytes 0 ++ encodeProduct pass ++ odd)
    let add := blockWords 0x04 (card 0) 0 odd
    (isRecordReady .enroll enroll 0 (reading enroll emptied) = true ∧
        1 < (byteAt (parseBlock enroll).payload 1).toNat ∧ byteAt (parseBlock enroll).payload (8 + 12 * 1) = 3) ∧
      (isRecordReady .addProduct add 0 (reading add (owning [3])) = true ∧
        ((owning [3]).slot 0).cells.length < 12 ∧ byteAt (parseBlock add).payload 0 = 3) := by decide +kernel

/-- Short of cells, the record commands for card 1 find a clean victim in slot 0, with entries on the slot-wait list. -/
theorem meets_EnrollWritesTheRecord_and_AddProduct_victim :
    let s := (queue (holdsCell 0 (cached.modSlot 1 fun x => { x with record := Record.empty 4 }))).setSlotWait [.tap 1]
    let t := (queue (holdsCell 0 cached)).setSlotWait [.tap 1]
    let enroll := enrollWords 1 7 1 0 [pass]
    (isRecordReady .enroll enroll 1 (reading enroll s) = true ∧ cellVictim 1 (reading enroll s) = some 0 ∧
        (reading enroll s).pool.free.length < [pass].length ∧
        ∀ u, u ∈ s.slotWait →
          u ≠ .change ∧ waiterKey (reading enroll s) u ≠ blockKey (readOp enroll) (reading enroll s)) ∧
      (isRecordReady .addProduct (addWords 1) 1 (reading (addWords 1) t) = true ∧
        cellVictim 1 (reading (addWords 1) t) = some 0 ∧ (t.slot 1).cells.length < 12 ∧ t.pool.free = [] ∧
        ∀ u, u ∈ t.slotWait →
          u ≠ .change ∧
            waiterKey (reading (addWords 1) t) u ≠ blockKey (readOp (addWords 1)) (reading (addWords 1) t)) := by
  decide +kernel

theorem meets_RecordFieldCommands :
    (isRecordReady .amend (amendWords 0 15 7) 0 (reading (amendWords 0 15 7) cached) = true ∧
        isRecordReady .amend (amendWords 0 0 7) 0 (reading (amendWords 0 0 7) cached) = true ∧
        isRecordReady .amend (amendWords 0 16 7) 0 (reading (amendWords 0 16 7) cached) = true ∧
        isRecordReady .amend (amendWords 0 1 8) 0 (reading (amendWords 0 1 8) cached) = true) ∧
      (isRecordReady .adjust (adjustWords 0 16776715) 0 (reading (adjustWords 0 16776715) cached) = true ∧
        (cached.slot 0).record.balance + (16776715 : Word).toInt = 16777215 ∧
        (cached.slot 0).record.balance + (0xFFFEFE0C : Word).toInt = -65536 ∧
        isRecordReady .adjust (adjustWords 0 0xFFFEFE0C) 0 (reading (adjustWords 0 0xFFFEFE0C) cached) = true) ∧
      isRecordReady .block (bareWords 6 0) 0 (reading (bareWords 6 0) cached) = true ∧
      isRecordReady .unblock (bareWords 7 0) 0 (reading (bareWords 7 0) cached) = true := by decide +kernel

theorem meets_AddAndRemoveProduct :
    (isRecordReady .addProduct (addWords 0) 0 (reading (addWords 0) (owning [3])) = true ∧
        ((owning [3]).slot 0).cells.length < 12 ∧ decodeProduct (parseBlock (addWords 0)).payload 0 = some pass ∧
        (owning [3]).pool.free = 7 :: [8] ∧ 7 ∉ ((owning [3]).slot 0).cells) ∧
      (isRecordReady .addProduct (addWords 0) 0 (reading (addWords 0) (owning (List.replicate 12 3))) = true ∧
        12 ≤ ((owning (List.replicate 12 3)).slot 0).cells.length) ∧
      (((owning [3]).setPool live.pool).pool.free = [] ∧
        cellVictim 0 ((owning [3]).setPool live.pool) = none) ∧
      (isRecordReady .removeProduct (removeWords 0) 0 (reading (removeWords 0) (owning [4, 3])) = true ∧
        ((owning [4, 3]).slot 0).cells.find?
            (fun c => ((owning [4, 3]).pool.entry c).tag == halfAt (parseBlock (removeWords 0)).payload 0)
          = some 3) ∧
      ∀ c, c ∈ ((owning [4]).slot 0).cells →
        ((owning [4]).pool.entry c).tag ≠ halfAt (parseBlock (removeWords 0)).payload 0 := by decide +kernel

theorem meets_RetireAndFlush :
    (isRecordReady .retire (bareWords 8 0) 0 (reading (bareWords 8 0) cached) = true ∧
        (cached.slot 0).writeInFlight = false) ∧
      (isRecordReady .retire (bareWords 8 4) 4 (reading (bareWords 8 4) cached) = true ∧
        (cached.slot 4).writeInFlight = true) ∧
      (isRecordReady .flush (bareWords 9 0) 0 (reading (bareWords 9 0) cached) = true ∧
        (cached.slot 0).nothingToWrite = true) ∧
      (isRecordReady .flush (bareWords 9 4) 4 (reading (bareWords 9 4) cached) = true ∧
        (cached.slot 4).writeInFlight = true) ∧
      (isRecordReady .flush (bareWords 9 1) 1 (reading (bareWords 9 1) cached) = true ∧
        (cached.slot 1).writeInFlight = false ∧ (cached.slot 1).dirty = true) := by decide +kernel

theorem meets_FlushAllCoversTheDirtySlots :
    isReady .flushAll (bareWords 10 0) (reading (bareWords 10 0) live) = true ∧
      (∀ k, (live.slot k).state ≠ .resident ∨ ((live.slot k).dirty = false ∧ (live.slot k).wbFault = false)) ∧
      isReady .flushAll (bareWords 10 0) (reading (bareWords 10 0) cached) = true ∧
      (cached.slot 1).flushAllCovers = true ∧ (cached.slot 1).writeInFlight = false ∧
      (cached.slot 0).flushAllCovers = false ∧
      ((cached.modSlot 4 fun x => { x with dirty := true }).slot 4).flushAllCovers = true := by decide +kernel

def rereading : State := (reading nopWords live).modChange fun u => { u with rereading := true }
def abandoned (ws : List Word) : Op := { readOp ws with request := .blockRead 0x6000 true, started := 998 }

theorem meets_BlockReadsThatApplyNothing :
    (blockArrives true 0 (lastWord nopWords) (oddParity (lastWord nopWords)) rereading = some (readOp nopWords) ∧
        rereading.change.stop = .none) ∧
      (let s := rereading.modChange fun u => { u with stop := .suspend }
       blockArrives true 0 (lastWord nopWords) (oddParity (lastWord nopWords)) s = some (readOp nopWords) ∧
         s.change.stop = .suspend) ∧
      ((withOp (readOp []) live).op 0 = some (readOp []) ∧
        (readOp []).endBy live (.response .error) = some (readOp [], .busError) ∧
        { readOp [] with started := 998 }.endBy live .timeout = some ({ readOp [] with started := 998 }, .timeout)) ∧
      ((withOp (abandoned [1, 2, 0, 4]) live).op 0 = some (abandoned [1, 2, 0, 4]) ∧
        (abandoned [1, 2, 0, 4]).endBy live (.response .error) = some (abandoned [1, 2, 0, 4], .busError) ∧
        (abandoned [1, 2, 0, 4]).respond (.data 7 (oddParity 7)) = some (abandoned [1, 2, 0, 4, 7], some .ok)) := by
  decide +kernel

def stored (stop : PendingStop) (e f : Bool) : State :=
  withOp (statusOp 1)
    (live.modChange fun u => { u with state := .storing, stop := stop, block := { u.block with flagE := e, flagS := f } })

theorem meets_StatusWriteEnds :
    (stored .none false false).op 0 = some (statusOp 1) ∧ (statusOp 1).acked = 1 ∧
      (storing live).op 0 = some (statusOp 1) ∧ (storing live).change.block.flagI = true ∧ (stored .abort false false).change.stop = .abort ∧
      (stored .none true true).change.block.flagE = true ∧ (stored .suspend false true).change.stop = .suspend ∧
      (stored .none false true).change.block.flagS = true ∧
      (statusOp 1).endBy (stored .none false false) (.response .error) = some (statusOp 1, .busError) ∧
      (statusOp 0).endBy (stored .none false false) .timeout = some (statusOp 0, .timeout) := by decide +kernel

/-! ## The Urgent Command Unit and the formats -/

def asked (k : Nat) (s : State) : State := s.modUrgent fun u => { u with arg := card k }

def allMarked : State := cached.setMarks (Vector.replicate 16 (some (card 9)))

theorem meets_UrgentBlock :
    (asked 0 cached).isOpen = true ∧ (asked 0 cached).urgent.state ≠ .busy ∧
      (findResident (keyOf (asked 0 cached).engine.keyShape (card 0)) (asked 0 cached) = some 0 ∧
        ((asked 0 cached).slot 0).record.state ≠ .empty ∧ ((asked 0 cached).slot 0).record.ident = card 0) ∧
      (ownResident (card 9) (asked 9 ruled) = none ∧ (asked 9 ruled).marks.get 15 = some (card 9)) ∧
      (ownResident (card 8) (asked 8 allMarked) = none ∧ (∀ m, (asked 8 allMarked).marks.get m ≠ some (card 8)) ∧
        ∀ m, (asked 8 allMarked).marks.get m ≠ none) ∧
      (ownResident (card 8) (asked 8 ruled) = none ∧ (∀ m, (asked 8 ruled).marks.get m ≠ some (card 8)) ∧
        (asked 8 ruled).marks.get 1 = none ∧ ∀ j, j < 1 → (asked 8 ruled).marks.get j ≠ none) := by decide +kernel

/-- The argument names a key directly (R170). -/
def named (k : Nat) (s : State) : State := s.modUrgent fun u => { u with arg := (key k).zeroExtend 56 }

theorem meets_PeekFlushAndRetry :
    (named 0 cached).isOpen = true ∧ (named 0 cached).urgent.state ≠ .busy ∧
      findResident ((named 0 cached).urgent.arg.extractLsb' 0 16) (named 0 cached) = some 0 ∧
      (cached.slot 0).nothingToWrite = true ∧
      findResident ((named 1 cached).urgent.arg.extractLsb' 0 16) (named 1 cached) = some 1 ∧
      (cached.slot 1).writeInFlight = false ∧ (cached.slot 1).dirty = true ∧ (cached.slot 1).wbFault = false ∧
      findResident ((named 5 cached).urgent.arg.extractLsb' 0 16) (named 5 cached) = some 5 ∧
      (cached.slot 5).wbFault = true ∧ (cached.slot 5).writeInFlight = false ∧
      findResident ((named 4 cached).urgent.arg.extractLsb' 0 16) (named 4 cached) = some 4 ∧
      (cached.slot 4).writeInFlight = true ∧
      ((cached.modSlot 4 fun x => { x with wbFault := true }).slot 4).wbFault = true ∧
      findResident ((named 2 cached).urgent.arg.extractLsb' 0 16) (named 2 cached) = none := by decide +kernel

/-- For UnmarkRemovesTheMark as well. -/
theorem meets_UnknownAndLostUrgentCommands :
    live.isOpen = true ∧ live.urgent.state ≠ .busy ∧ 5 < (6 : Word).toNat ∧ State.reset.isOpen = false ∧
      (live.modUrgent fun u => { u with state := .busy }).urgent.state = .busy := by decide +kernel

theorem meets_HomeImageRoundTrip :
    (Record.empty 7).state = .empty ∧ (recordOf 0).state ≠ .empty ∧ -65535 ≤ { recordOf 0 with balance := -65535 }.balance ∧
      { recordOf 0 with balance := 16777215 }.balance ≤ 16777215 ∧ (List.replicate 12 pass).length ≤ 12 := by
  decide +kernel

theorem meets_EveryStepKeepsSettingsSound : settingsSound live ∧ ∃ t, step live = .next t :=
  ⟨⟨⟨fun c => by revert c; decide +kernel, fun c => by revert c; decide +kernel⟩, by unfold homeBaseAligned; decide +kernel,
      by unfold portBounded; decide +kernel, by unfold memoryCanonical; decide +kernel,
      by unfold phaseBounded; decide +kernel, by unfold coalescingBounded; decide +kernel⟩, _, rfl⟩

theorem meets_EveryStepKeepsRecordsSound : recordsSound cached ∧ ∃ t, step cached = .next t :=
  ⟨fun i => by revert i; unfold Slot.sound; decide +kernel, _, rfl⟩

/-! ## One step each -/

def after (c : Instr) (s : State) : State :=
  match exec c s with
  | .next t => t
  | .fault _ | .refused _ => s

/-- An entry tap of card 0, resident and ACTIVE with the burst refilled: accepted at once, a token taken. -/
theorem test_tap_is_accepted :
    let t := after (.tap 2 55 1 0x0313 (ser 0) (check 1 0)) cached
    (t.line 2).state = .ready ∧
      (t.line 2).verdict =
        some { sequence := 55, outcome := .accept, reason := .none, fare := 0, balance := 500, tag := 0, rides := 0,
               epoch := 0 } ∧
      (t.slot 0).record.trip = .within ∧ (t.slot 0).record.tokens = 14 ∧ (t.slot 0).dirty = true := by decide +kernel

/-- Table 12.6 and the line status byte: READY, ENGINE RUNNING, a new verdict; REFUSE 2, FRAME_ERROR 14, check 36h xor 2
xor Eh. -/
theorem test_poll_reply :
    replyBytes ((frameError live).line 2) false true
      = [0x0E#8, 0x36, 2, 14, 0, 0, 0, 0, 0, 0, 0, 0, 0, 0, 0, 0x3A] := by decide +kernel

/-- R175: a millisecond passes on the empty queue, and the second is full. -/
theorem test_idle_tick :
    (idleTick live).clock = { seconds := 1700000001, phase := 0, timeBase := 1001 } := by decide +kernel

/-- R177: the last second of a day ends in INITIALIZING: the clock advances and nothing is raised. -/
theorem test_clock_advance_in_initializing :
    let t := after .clockAdvance lastOfDay
    t.clock = { seconds := 86400, phase := 0, timeBase := 1001 } ∧ t.attn = live.attn ∧
      t.engine.state = .initializing := by decide +kernel

/-- R76: the levels of the gate's wires that send a byte, and then a part of one. -/
def wave (b : Byte) (part : Nat) : List LineSample :=
  ((List.range 8).map (wireBit b) ++ List.replicate part true).flatMap fun x => [⟨true, x⟩, ⟨false, x⟩]

/-- R76: the bits of 5Ah, then a partial byte: the opcode of a POLL is complete, and the frame is cut short. A ninth rise
of the clock finds the first bit of the reply on data out. -/
theorem test_frame_of_bits :
    frameEvents 2 (wave 0x5A 3) = [.frameStart 2, .pollReplyFixed 2, .frameCutShort 2] ∧
      frameEvents 2 ((wave 0x5A 0).take 15) = [.frameStart 2, .pollReplyFixed 2, .frameCutShort 2] ∧
      frameEvents 2 ((wave 0x5A 0).take 14) = [.frameStart 2, .frameWithoutOpcode 2] ∧
      (let s := withFrame (.replying false [0x8E, 1] true) live
       dataOut 2 [] s = some false ∧ dataOut 2 (wave 0x5A 0) s = some true ∧ dataOut 2 (wave 0x5A 1) s = some false ∧
         lineDrives 2 2 s = some 1 ∧ lineDrives 2 3 s = some 0 ∧ dataOut 2 [] live = none) := by decide +kernel

/-- Table 12.5: a TAP of card 0A02B50h of issuer 0313h, sequence 55, direction entry, byte by byte. -/
theorem test_frame_command :
    frameCommand 2 [0x3C, 55, 1, 0x03, 0x13, 0, 0, 0xA0, 0x2B, 0x50, 0xC1] = .tap 2 55 1 0x0313 (ser 0) 0xC1 ∧
      frameCommand 2 (0x5A :: List.replicate 16 0) = .poll 2 ∧
      frameCommand 2 (0x69 :: List.replicate 16 0) = .repeatFrame 2 := by decide +kernel

/-- 4.3: the second beat of a STATUS WRITE drives the status bytes, and odd parity on each lane. -/
theorem test_status_beat :
    (statusOp 1).beat.dataDriven = some (0x00000300, 0xF) ∧ (statusOp 1).beat.lanes = 3 := by decide +kernel

/-- R62, R66: the acknowledgement of the status word is the block's completion; memory holds the two bytes. -/
theorem test_status_write_ends :
    let t := after (.statusWriteComplete 0) (storing live)
    t.hostMem = [(0x6008, 0x00#8), (0x6009, 0x03#8)] ∧ t.attn.pending = 0x001 := by decide +kernel

/-- 12.4: an access outside the register window is no access to the device. -/
theorem test_write_outside_the_window :
    exec (.registerWrite 0x660 1) live = .fault (.noSuchRegister 0x660) := rfl

end Sys2Proof.Tests
end

section
/-! UNMARK (R168): what the lookup and the removal of a mark answer, how an urgent command is taken and ends, and the
settling of O54. -/

namespace Sys2Proof.Machine

/-! ## The Block Mark Table (R169, R170) -/

/-- R101: the lookup finds an identifier exactly when some entry holds its mark. -/
theorem markedIdent_iff (x : Ident) (s : State) : markedIdent x s = true ↔ ∃ m, s.marks.get m = some x := by
  simp [markedIdent, Vector.any_eq, Vector.get_eq_getElem, Fin.exists_iff]

/-- R170: a removal empties the entries of its identifier, and every other entry keeps its mark. -/
theorem removeMark_marks_get (x : Ident) (s : State) (m : Fin 16) :
    (removeMark x s).marks.get m = if s.marks.get m = some x then none else s.marks.get m :=
  get_map_eq _ s.marks m

/-- R168: where no entry holds the mark, its removal leaves the table, and so the state, as it is. -/
theorem removeMark_of_not_marked {x : Ident} {s : State} (h : ¬ markedIdent x s = true) : removeMark x s = s := by
  have unmarked : ∀ m, s.marks.get m ≠ some x := fun m hm => h ((markedIdent_iff x s).mpr ⟨m, hm⟩)
  have table : (removeMark x s).marks = s.marks := by
    apply Vector.ext
    intro j hj
    have entry := removeMark_marks_get x s ⟨j, hj⟩
    rwa [if_neg (unmarked ⟨j, hj⟩)] at entry
  exact congrArg s.setMarks table

/-! ## Taking and ending an urgent command (R166) -/

/-- R166: an open device whose unit is not BUSY takes the command and carries it out. -/
theorem giveUrgent_of_ready {s : State} (hopen : s.isOpen = true) (hready : s.urgent.state ≠ .busy) (code : Word)
    (run : State → State) : giveUrgent code run s = run (takeUrgent code s) := by
  simp [giveUrgent, hopen, hready]

/-- R166: the end of a command writes the urgent registers and the Attention Controller alone. -/
theorem finishUrgent_eq_raised (r : UrgentResult) (value : Half) (s : State) :
    finishUrgent r value s =
      { s with
        urgent := { s.urgent with state := .done, result := r, value := value }, attn := raised .urgentDone s } := by
  rw [finishUrgent_eq, raise_eq_raised]
  rfl

/-! ## UNMARK (R168) -/

/-- R168: both answers of UNMARK are the end of one removal, since removing an absent mark changes nothing. -/
theorem runUnmark_eq (s : State) :
    runUnmark s =
      finishUrgent (if ∃ m, s.marks.get m = some s.urgent.taken then .removed else .absent)
        (markValue (removeMark s.urgent.taken s)) (removeMark s.urgent.taken s) := by
  simp only [runUnmark, ← markedIdent_iff]
  split
  case isTrue marked => rfl
  case isFalse absent => rw [removeMark_of_not_marked absent]

/-- R166, R168: UNMARK taken and ended: it writes the Block Mark Table, the urgent registers and the Attention
Controller, and no other field. -/
theorem exec_unmark_of_ready {s : State} (hopen : s.isOpen = true) (hready : s.urgent.state ≠ .busy) :
    exec .unmark s =
      .next
        { s with
          marks := (removeMark s.urgent.arg s).marks,
          urgent :=
            { s.urgent with
              state := .done, command := some 2, lost := false, taken := s.urgent.arg,
              result := if ∃ m, s.marks.get m = some s.urgent.arg then .removed else .absent,
              value := markValue (removeMark s.urgent.arg s) },
          attn := raised .urgentDone s } := by
  have taken : unmarkCmd s = runUnmark (takeUrgent 2 s) := giveUrgent_of_ready hopen hready 2 runUnmark
  show Host.Outcome.next (unmarkCmd s) = _
  rw [taken, runUnmark_eq, finishUrgent_eq_raised]
  rfl

/-- Settles O54: the outcome of UNMARK is read off field by field, and the table's entries by the rule of a removal. -/
theorem unmarkRemovesTheMark : Obligations.UnmarkRemovesTheMark := by
  intro s hopen hready
  refine ⟨_, exec_unmark_of_ready hopen hready, removeMark_marks_get s.urgent.arg s, ?registers, ?attention, ?frame⟩
  case registers => rfl
  case attention => rfl
  case frame => simp [keepsCache, keepsHost]

end Sys2Proof.Machine
end

section
/-! The Station Clock's write, and the flags, levels and interrupt output of the Attention Controller (R176, R180, R182),
with the settling of O9, O12 and O13. -/

namespace Sys2Proof.Machine

/-! ## The twelve sources (Table 10.2) -/

theorem mem_allSources (x : Source) : x ∈ allSources := by cases x <;> decide

theorem Source.code_bounds (x : Source) : 1 ≤ x.code ∧ x.code ≤ 12 := by cases x <;> decide

/-- A source's bit stands at the place of its own flag. -/
theorem Source.bit_getLsbD_self (x : Source) : x.bit.getLsbD (x.code - 1) = true := by
  have bounds := x.code_bounds
  have place : x.code - 1 < 12 := by omega
  simp [Source.bit, place]

/-! ## Levels, raises and the interrupt output (R180) -/

/-- R180: a source's level is the base-4 digit of ATTN_LEVEL at the source's place. -/
theorem Attention.level_eq_digit (a : Attention) (x : Source) :
    a.level x = a.levels.toNat / 4 ^ (x.code - 1) % 4 := by
  have place : 2 * x.code - 2 = 2 * (x.code - 1) := by omega
  calc a.level x = a.levels.toNat / (2 ^ 2) ^ (x.code - 1) % 2 ^ 2 := by
        rw [Attention.level, BitVec.extractLsb'_toNat, Nat.shiftRight_eq_div_pow, place, Nat.pow_mul]
    _ = a.levels.toNat / 4 ^ (x.code - 1) % 4 := rfl

/-- R179: a raise that the controller takes sets the source's flag and keeps every level. -/
theorem raise_of_isOpen {s : State} (x : Source) (hopen : s.isOpen = true) :
    (raise x s).attn.isPending x = true ∧ (raise x s).attn.levels = s.attn.levels := by
  have taken : (raise x s).attn = { s.attn with pending := s.attn.pending ||| x.bit } := by
    rw [raise_eq_raised, raised, if_pos hopen]
  rw [taken]
  refine ⟨?flag, rfl⟩
  case flag =>
    show (s.attn.pending ||| x.bit).getLsbD (x.code - 1) = true
    rw [BitVec.getLsbD_or, x.bit_getLsbD_self, Bool.or_true]

/-- R180: the interrupt output is asserted by a pending source of level 1 or more, and by nothing else. -/
theorem Attention.irq_iff (a : Attention) : a.irq = true ↔ ∃ x, a.isPending x = true ∧ 1 ≤ a.level x := by
  simp only [Attention.irq, List.any_eq_true, Bool.and_eq_true, decide_eq_true_eq, mem_allSources, true_and]

/-- R187: the common part of HOLD and power-on puts the Attention Controller at its reset values. -/
theorem resetBlocks_attn (s : State) : (resetBlocks s).attn = Attention.reset := rfl

/-! ## Writes of ATTN_LEVEL and ATTN_PENDING (R180, R182) -/

theorem exec_attnLevelWrite_of_isOpen {s : State} (v : Word) (hopen : s.isOpen = true) :
    exec (.attnLevelWrite v) s = .next { s with attn := { s.attn with levels := v.extractLsb' 0 24 } } := by
  have low : v.truncate 24 = v.extractLsb' 0 24 := BitVec.setWidth_eq_extractLsb' (by decide)
  show Host.Outcome.next (writeLevels v s) = _
  rw [writeLevels, if_pos hopen, low]
  rfl

theorem exec_attnLevelWrite_of_closed {s : State} (v : Word) (hclosed : s.isOpen = false) :
    exec (.attnLevelWrite v) s = .next s := by
  show Host.Outcome.next (writeLevels v s) = _
  simp [writeLevels, hclosed]

theorem exec_attnPendingWrite_of_isOpen {s : State} (v : Word) (hopen : s.isOpen = true) :
    exec (.attnPendingWrite v) s =
      .next { s with attn := { s.attn with pending := s.attn.pending &&& ~~~(v.extractLsb' 0 12) } } := by
  have low : v.truncate 12 = v.extractLsb' 0 12 := BitVec.setWidth_eq_extractLsb' (by decide)
  show Host.Outcome.next (clearPending v s) = _
  rw [clearPending, if_pos hopen, low]
  rfl

theorem exec_attnPendingWrite_of_closed {s : State} (v : Word) (hclosed : s.isOpen = false) :
    exec (.attnPendingWrite v) s = .next s := by
  show Host.Outcome.next (clearPending v s) = _
  simp [clearPending, hclosed]

/-! ## Reads of ATTN_PENDING and ATTN_CAUSE (R181, R182) -/

/-- Table 12.8: ATTN_PENDING shows the twelve flags in its low bits. -/
theorem regRead_attnPending (s : State) : regRead s 0x024 = s.attn.pending.zeroExtend 32 := by
  rw [regRead, if_pos (by decide)]
  rfl

/-- R182: the bit of ATTN_PENDING at a source's place is the source's flag. -/
theorem regRead_attnPending_getLsbD (s : State) (x : Source) :
    (regRead s 0x024).getLsbD (x.code - 1) = s.attn.isPending x := by
  have bounds := x.code_bounds
  have place : x.code - 1 < 32 := by omega
  simp [regRead_attnPending, Attention.isPending, place]

/-- R181: a read of ATTN_CAUSE writes nothing in the controller but the flags, whether or not it finds a cause. -/
theorem readCause_attn (s : State) :
    (readCause s).attn = { s.attn with pending := (readCause s).attn.pending } := by
  cases found : s.attn.cause with
  | none => simp [readCause, found]
  | some x => simp [readCause, found]

/-! ## The write of STATION_CLOCK (R176) -/

/-- R176: the write begins a new second at the value written, and reaches neither the time base nor another field. -/
theorem writeClock_eq (v : Word) (s : State) :
    writeClock v s = { s with clock := { seconds := v, phase := 0, timeBase := s.clock.timeBase } } := rfl

/-! ## The obligations -/

/-- Settles O9: the event is one write of the clock, in whatever state the engine is. -/
theorem stationClockWrite : Obligations.StationClockWrite := by
  intro s v
  exact congrArg Host.Outcome.next (writeClock_eq v s)

/-- Settles O12, from the rules of the register's read and write and the frame of a read of ATTN_CAUSE. -/
theorem attnPendingReadAndWrite : Obligations.AttnPendingReadAndWrite := by
  intro s v
  exact ⟨regRead_attnPending s, fun x => (regRead_attnPending_getLsbD s x).symm, exec_attnPendingWrite_of_isOpen v,
    exec_attnPendingWrite_of_closed v, readCause s, rfl, readCause_attn s⟩

/-- Settles O13: both resets leave the controller at its reset values, whose levels are 0; a level is a digit of
ATTN_LEVEL, and the interrupt output is read off the list of all sources. -/
theorem attnLevelsAndInterruptOutput : Obligations.AttnLevelsAndInterruptOutput := by
  intro s v
  have hold : ∃ t, exec .hold s = .next t ∧ t.attn.levels = 0 :=
    ⟨controlHold s, rfl, congrArg Attention.levels (resetBlocks_attn s)⟩
  have powerOn : ∃ t, exec .powerOn s = .next t ∧ t.attn.levels = 0 :=
    ⟨powerUp s, rfl, congrArg Attention.levels (resetBlocks_attn s)⟩
  exact ⟨hold, powerOn, exec_attnLevelWrite_of_isOpen v, exec_attnLevelWrite_of_closed v, s.attn.level_eq_digit,
    raise_of_isOpen, s.attn.irq_iff⟩

end Sys2Proof.Machine
end

section
/-! The hand-over of a freed slot to the slot-wait list (R43), as one state. -/

namespace Sys2Proof.Machine

/-- R97: the context of a waiting tap enters AWAIT_RECORD, or AWAIT_SLOT. -/
theorem setAwait_ctx (b : Bool) (w : Waiter) (s : State) (c : CtxNo) :
    (setAwait b w s).ctx c = if w = .tap c then (s.ctx c).map fun x => { x with awaitRecord := b } else s.ctx c := by
  cases w with
  | change => rfl
  | tap d =>
    by_cases same : d = c
    · subst same
      cases held : s.ctx d <;> simp [setAwait, held]
    · have apart : c ≠ d := fun e => same e.symm
      have other : (Waiter.tap d) ≠ .tap c := fun e => same (Waiter.tap.inj e)
      rw [if_neg other]
      cases held : s.ctx d <;> simp [setAwait, held, State.ctx_setCtx, apart]

/-- R43: the contexts of the taps handed over enter AWAIT_RECORD, and no other context changes. -/
theorem awaitAll_ctx (ws : List Waiter) (s : State) (c : CtxNo) :
    (awaitAll ws s).ctx c =
      if .tap c ∈ ws then (s.ctx c).map fun x => { x with awaitRecord := true } else s.ctx c := by
  induction ws generalizing s with
  | nil => rfl
  | cons w ws ih =>
    have step : awaitAll (w :: ws) s = awaitAll ws (setAwait true w s) := rfl
    rw [step, ih, setAwait_ctx]
    by_cases first : w = .tap c
    · subst first
      by_cases again : Waiter.tap c ∈ ws
      · simp [again, Function.comp_def]
      · simp [again]
    · have rest : Waiter.tap c ∈ w :: ws ↔ Waiter.tap c ∈ ws := by
        simp [List.mem_cons, Ne.symm first]
      simp [first, rest]

/-- R43: the oldest entry of the slot-wait list and the later entries of its key leave the list and wait on the slot,
whose fetch is asked for. -/
theorem handOver_cons {i : SlotNo} {s : State} {w : Waiter} {ws : List Waiter} (h : s.slotWait = w :: ws) :
    handOver i s =
      { s with
        taps := (awaitAll (s.slotWait.filter fun v => waiterKey s v == waiterKey s w) s).taps,
        slots :=
          s.slots.set i.val
            { Slot.unused with
              state := .fetching, key := waiterKey s w,
              waiting := s.slotWait.filter fun v => waiterKey s v == waiterKey s w } i.isLt,
        slotWait := s.slotWait.filter fun v => waiterKey s v != waiterKey s w,
        counts := { s.counts with misses := s.counts.misses + 1 },
        port := { s.port with list := s.port.list ++ [.fetch i (waiterKey s w) (homeAddr s (waiterKey s w))] } } := by
  have taps : ∀ x ws, (awaitAll ws (s.setSlotWait x)).taps = (awaitAll ws s).taps := by
    intro x ws
    apply Vector.ext
    intro j hj
    have same : (awaitAll ws (s.setSlotWait x)).ctx ⟨j, hj⟩ = (awaitAll ws s).ctx ⟨j, hj⟩ := by
      rw [awaitAll_ctx, awaitAll_ctx]; rfl
    exact same
  unfold handOver
  simp only [h]
  rw [awaitAll_eq, taps]
  simp only [startFetch, ask, homeAddr, State.modPort, State.modCounts, State.setSlot, State.setPort, State.setCounts,
    State.setSlots, State.setTaps, State.setSlotWait]

/-- R43: a hand-over writes no slot but the one handed over. -/
theorem handOver_slot_ne (i j : SlotNo) (s : State) (h : j ≠ i) : (handOver i s).slot j = s.slot j := by
  cases waiting : s.slotWait with
  | nil => rw [handOver_nil i s waiting]
  | cons w ws =>
    rw [handOver_cons waiting]
    exact get_set_ne _ _ h

end Sys2Proof.Machine
end

section
/-! The port (chapter 4): the beats that memory takes, the ends of operations, and what a reset makes of the port, each as
one state. -/

namespace Sys2Proof.Machine

/-! ## Beats -/

/-- R62: memory takes the lanes of a write beat. -/
theorem takeBeat_of_write {b : Beat} (s : State) (h : b.write = true) :
    takeBeat b s = { s with hostMem := s.hostMem.takeBeat b } := by
  rw [takeBeat, if_pos h]
  rfl

/-- R63: a cut-off beat reaches the memory and the counter of free values alone. -/
theorem cutOffBeat_eq (b : Beat) (s : State) :
    cutOffBeat b s = { s with hostMem := (cutOffBeat b s).hostMem, freeIndex := (cutOffBeat b s).freeIndex } := by
  unfold cutOffBeat takeBeat
  dsimp only
  split
  · split <;> rfl
  · rfl

/-- R63: memory took the word of a cut-off beat, or did not. -/
theorem cutOffBeat_hostMem (b : Beat) (s : State) :
    (cutOffBeat b s).hostMem = s.hostMem ∨ (cutOffBeat b s).hostMem = s.hostMem.takeBeat b := by
  unfold cutOffBeat takeBeat
  dsimp only
  split
  · split
    · exact .inr rfl
    · exact .inl rfl
  · exact .inl rfl

/-- R63: a read beat that is cut off leaves no trace. -/
theorem cutOffBeat_of_read {b : Beat} (s : State) (h : b.write = false) : cutOffBeat b s = s := by
  simp [cutOffBeat, h]

/-! ## The ends of operations -/

/-- R66: an operation that ends OK leaves the in-flight set. -/
theorem endOp_ok (i : Nat) (o : Op) (s : State) :
    endOp i o .ok s = { s with port := { s.port with inFlight := s.port.inFlight.eraseIdx i } } := rfl

/-- R63, R64, R67: an operation that ends with a fault: the record, the count and the raise, the beat that a timeout
leaves on the bus, and the memory as the cut-off beat leaves it. -/
theorem endOp_fault (i : Nat) (o : Op) {out : OpOutcome} (s : State) (h : out ≠ .ok) :
    endOp i o out s =
      { s with
        port := portFaulted i o.request out (if out = .timeout then [o.beat] else []) s,
        attn := raised .memFault s,
        hostMem := (cutOffBeat o.beat s).hostMem, freeIndex := (cutOffBeat o.beat s).freeIndex } := by
  have left : cutOffBeat o.beat (s.modPort fun p => { p with inFlight := p.inFlight.eraseIdx i }) =
      { s with
        port := { s.port with inFlight := s.port.inFlight.eraseIdx i },
        hostMem := (cutOffBeat o.beat s).hostMem, freeIndex := (cutOffBeat o.beat s).freeIndex } := by
    unfold cutOffBeat takeBeat
    dsimp only [State.modPort_freeIndex]
    split
    · split <;> rfl
    · rfl
  cases out with
  | ok => exact absurd rfl h
  | timeout =>
    simp only [endOp, left]
    rw [recordFault, raise_eq_raised]
    rfl
  | busError | parity =>
    simp only [endOp, left]
    rw [recordFault, raise_eq_raised]
    simp only [portFaulted, reduceCtorEq, if_false, List.append_nil]
    rfl

/-- R61 to R63: an end other than OK leaves the operation as it stood, and is no acknowledgement. -/
theorem endBy_fault {s : State} {o o' : Op} {e : BusEnd} {out : OpOutcome} (h : o.endBy s e = some (o', out))
    (fault : out ≠ .ok) : o' = o ∧ ∀ t, ackEnd o e t = t := by
  cases e with
  | timeout =>
    simp only [Op.endBy, Option.ite_none_right_eq_some, Option.some.injEq, Prod.mk.injEq] at h
    obtain ⟨_, rfl, _⟩ := h
    exact ⟨rfl, fun _ => rfl⟩
  | response r =>
    cases r with
    | error =>
      obtain ⟨rfl, _⟩ := Prod.mk.inj (Option.some.inj h)
      exact ⟨rfl, fun _ => rfl⟩
    | data w p =>
      refine ⟨?_, fun _ => rfl⟩
      simp only [Op.endBy, Op.respond] at h
      split at h
      · next o₁ out₁ ended =>
        obtain ⟨rfl, rfl⟩ := Prod.mk.inj (Option.some.inj h)
        split at ended
        · exact absurd ended nofun
        · split at ended
          · obtain ⟨_, finished⟩ := Prod.mk.inj (Option.some.inj ended)
            split at finished
            · exact absurd (Option.some.inj finished).symm fault
            · exact absurd finished nofun
          · exact (Prod.mk.inj (Option.some.inj ended)).1.symm
      · exact absurd h nofun
    | ack =>
      simp only [Op.endBy, Op.respond] at h
      split at h
      · next o₁ out₁ ended =>
        obtain ⟨rfl, rfl⟩ := Prod.mk.inj (Option.some.inj h)
        split at ended
        · obtain ⟨_, finished⟩ := Prod.mk.inj (Option.some.inj ended)
          split at finished
          · exact absurd (Option.some.inj finished).symm fault
          · exact absurd finished nofun
        · exact absurd ended nofun
      · exact absurd h nofun

/-- R66: the end of an operation whose end passes the command's test: the requester acts, then the tests are made. -/
theorem endEvent_of_endBy {test : Request → Bool → Bool} {i : Nat} {e : BusEnd} {s : State} {o o' : Op} {out : OpOutcome}
    (held : s.op i = some o) (ends : o.endBy s e = some (o', out)) (passes : test o.request (out == .ok) = true) :
    endEvent test i e s = settle (deliverEnd o' (out == .ok) (endOp i o' out (ackEnd o e s))) := by
  simp only [endEvent, held, ends, passes, if_true]

/-- R66, R67: the same for an end other than OK, whose fault is recorded. -/
theorem endEvent_fault {test : Request → Bool → Bool} {i : Nat} {e : BusEnd} {s : State} {o : Op} {out : OpOutcome}
    (held : s.op i = some o) (ends : o.endBy s e = some (o, out)) (fault : out ≠ .ok)
    (passes : test o.request false = true) :
    endEvent test i e s = settle (deliverEnd o false (endOp i o out s)) := by
  have failed : (out == .ok) = false := by simpa using fault
  rw [endEvent_of_endBy held ends (by rw [failed]; exact passes), (endBy_fault ends fault).2, failed]

/-! ## The reset of the port -/

/-- R69: the operations in flight are abandoned, their beats left to the bus partner. -/
theorem foldl_abandonOp (l : List Op) (s : State) :
    l.foldl abandonOp s =
      { s with
        port := { s.port with stray := s.port.stray ++ l.map Op.beat },
        hostMem := (l.foldl abandonOp s).hostMem, freeIndex := (l.foldl abandonOp s).freeIndex } := by
  induction l generalizing s with
  | nil => simp
  | cons o l ih =>
    have one : abandonOp s o =
        { s with
          port := { s.port with stray := s.port.stray ++ [o.beat] },
          hostMem := (abandonOp s o).hostMem, freeIndex := (abandonOp s o).freeIndex } := by
      rw [abandonOp, leaveBeat, cutOffBeat_eq]
      rfl
    rw [List.foldl_cons, ih]
    generalize (l.foldl abandonOp (abandonOp s o)).hostMem = m
    generalize (l.foldl abandonOp (abandonOp s o)).freeIndex = n
    rw [one]
    simp

/-- R69: a reset of the port empties it, with the beats in flight left outstanding on the bus. -/
theorem resetPort_eq (s : State) :
    resetPort s =
      { s with
        port :=
          { list := [], inFlight := [], stray := s.port.stray ++ s.port.inFlight.map Op.beat,
            lastFault := LastFault.none, faults := 0, late := 0 },
        hostMem := (resetPort s).hostMem, freeIndex := (resetPort s).freeIndex } := by
  conv => lhs; rw [resetPort, foldl_abandonOp]
  rfl

end Sys2Proof.Machine
end

section
/-! Engine Control and the clock: the resets, initialisation, KEY_SHAPE and HOME_BASE, and the passing of time (R187, R188,
R11, R12, R175), with the settling of O4, O5, O8, O10 and O1. -/

namespace Sys2Proof.Machine

/-! ## Resets -/

/-- R187: what power-on and HOLD leave of each block. -/
theorem resetBlocks_eq (s : State) :
    resetBlocks s =
      { s with
        engine := Engine.reset, attn := Attention.reset,
        lines := s.lines.map fun l => Line.reset (if l.frame = .quiet then .quiet else .ignored), lineEvents := 0,
        taps := Vector.replicate 12 none, slots := Vector.replicate 256 Slot.unused, recency := [], slotWait := [],
        counts := { misses := 0, cleanEvictions := 0, dirtyEvictions := 0, rescues := 0, cleanerWrites := 0 },
        pool := { free := [], entries := Vector.replicate 1024 ProductEntry.zero },
        port :=
          { list := [], inFlight := [], stray := s.port.stray ++ s.port.inFlight.map Op.beat,
            lastFault := LastFault.none, faults := 0, late := 0 },
        tariff :=
          { bankA := Bank.reset, bankB := Bank.reset, activeB := false, epoch := 0,
            view := { bankB := false, row := false, number := 0 } },
        ranges := Vector.replicate 16 RangeRule.reset, lastWatch := LastWatch.reset, change := ChangeUnit.reset,
        urgent := Urgent.reset, marks := Vector.replicate 16 none, peek := PeekWindow.cleared 0,
        copies := RegCopies.reset, hostMem := (resetBlocks s).hostMem, freeIndex := (resetBlocks s).freeIndex } := by
  have blocks : resetBlocks s = { resetBlocks s with hostMem := (resetBlocks s).hostMem } := rfl
  rw [blocks]
  generalize (resetBlocks s).hostMem = m
  generalize freeIndex : (resetBlocks s).freeIndex = n
  rw [resetBlocks, resetPort_eq] at freeIndex ⊢
  simp only [resetTariff, resetLines, resetTaps, resetPool, resetCache, State.setEngine, State.setAttn,
    State.setChange, State.setUrgent, State.setMarks, State.setPeek, State.setCopies, State.setTariff, State.setRanges,
    State.setLastWatch, State.setLines, State.setLineEvents, State.setTaps, State.setPool, State.setSlots,
    State.setRecency, State.setSlotWait, State.setCounts] at freeIndex ⊢
  rw [freeIndex]

theorem resetBlocks_blocksReset (s : State) : blocksReset s (resetBlocks s) := by
  rw [resetBlocks_eq]
  refine ⟨rfl, rfl, fun i => ?_, rfl, rfl, rfl, rfl, fun c => ?_, fun n => ?_, rfl, rfl, rfl, rfl, rfl, rfl, rfl,
    fun n => ?_, rfl, rfl, rfl, fun m => ?_, rfl, rfl⟩
  case refine_3 => exact get_map_eq _ s.lines n
  all_goals exact get_replicate_eq _ _

/-- R187: power-on resets the blocks, the clock and the word on the bus slave's data lines. -/
theorem powerUp_eq (s : State) :
    powerUp s = { resetBlocks s with clock := { seconds := 0, phase := 0, timeBase := 0 }, slave := 0 } := rfl

theorem powerUp_blocksReset (s : State) : blocksReset s (powerUp s) := by
  have blocks := resetBlocks_blocksReset s
  simp only [blocksReset, State.slot, State.ctx, State.line] at blocks ⊢
  simpa only [powerUp_eq] using blocks

/-- R188, R49: what the end of initialisation leaves. -/
theorem initialise_eq (s : State) :
    initialise s =
      { s with
        engine := { s.engine with state := .stopped }, taps := Vector.replicate 12 none,
        slots := Vector.replicate 256 Slot.unused, recency := [], slotWait := [],
        pool := { s.pool with free := List.finRange 1024 } } := by
  unfold initialise rebuildPool resetTaps
  generalize Vector.replicate 256 Slot.unused = slots
  generalize Vector.replicate 12 none = taps
  generalize List.finRange 1024 = cells
  rfl

/-! ## KEY_SHAPE (R11) -/

theorem allFree_iff (s : State) : allFree s = true ↔ ∀ i, (s.slot i).state = .free := by
  simp only [allFree, List.all_eq_true, beq_iff_eq, Vector.mem_toList_iff]
  constructor
  · exact fun h i => h _ (Vector.getElem_mem i.isLt)
  · intro h x hx
    obtain ⟨j, hj, rfl⟩ := Vector.mem_iff_getElem.mp hx
    exact h ⟨j, hj⟩

theorem writeKeyShape_refused {s : State} (v : Word)
    (h : s.engine.state ≠ .stopped ∨ ∃ i, (s.slot i).state ≠ .free) : writeKeyShape v s = s := by
  refine if_neg fun ⟨stopped, free⟩ => ?_
  rcases h with running | ⟨i, used⟩
  · exact running stopped
  · exact used ((allFree_iff s).mp free i)

theorem writeHomeBase_refused {s : State} (v : Word) (h : s.engine.state ≠ .stopped ∨ v.extractLsb' 0 24 ≠ 0) :
    writeHomeBase v s = s :=
  if_neg fun ⟨stopped, aligned⟩ => h.elim (· stopped) (· aligned)

/-! ## The obligations -/

/-- Settles O4: HOLD is the reset of the blocks, and power-on sets the clock to 0 beside it. -/
theorem resetsGiveEveryBlockItsResetValues : Obligations.ResetsGiveEveryBlockItsResetValues := by
  intro s
  have clock : (resetBlocks s).clock = s.clock := by rw [resetBlocks_eq]
  have pending : (resetBlocks s).pending = s.pending := by rw [resetBlocks_eq]
  exact ⟨⟨controlHold s, rfl, resetBlocks_blocksReset s, clock, pending⟩,
    ⟨powerUp s, rfl, powerUp_blocksReset s, rfl, by simp only [powerUp_eq, pending]⟩⟩

/-- Settles O5. -/
theorem releaseAndInitialisation : Obligations.ReleaseAndInitialisation := by
  intro s
  refine ⟨fun held => ?_, fun other => ?_, fun initializing => ?_⟩
  · exact congrArg Host.Outcome.next (if_pos held)
  · exact congrArg Host.Outcome.next (if_neg other)
  · refine ⟨initialise s, congrArg Host.Outcome.next (if_pos initializing), ?_⟩
    rw [initialise_eq]
    refine ⟨rfl, by simp only, fun i => ?_, rfl, rfl, fun c => ?_, rfl, rfl, rfl, ?_, ?_⟩
    · exact get_replicate_eq _ i
    · exact get_replicate_eq _ c
    · simp [keepsUnits]
    · simp [keepsHost]

/-- Settles O8: each write is taken under its rule's condition and ignored elsewhere. -/
theorem keyShapeAndHomeBaseWrites : Obligations.KeyShapeAndHomeBaseWrites := by
  intro s v
  refine ⟨fun stopped free => ⟨fun k value => ?_, fun above => ?_⟩, fun h => ?_, fun stopped aligned => ?_, fun h => ?_⟩
  · show Host.Outcome.next (writeKeyShape v s) = _
    rw [writeKeyShape, if_pos ⟨stopped, (allFree_iff s).mpr free⟩, dif_pos (value ▸ k.isLt)]
    simp only [value]
    rfl
  · refine ⟨Config.keyShapeBeyond s.freeIndex v, ?_⟩
    show Host.Outcome.next (writeKeyShape v s) = _
    rw [writeKeyShape, if_pos ⟨stopped, (allFree_iff s).mpr free⟩, dif_neg (by omega)]
    rfl
  · exact congrArg Host.Outcome.next (writeKeyShape_refused v h)
  · exact congrArg Host.Outcome.next (if_pos ⟨stopped, aligned⟩)
  · exact congrArg Host.Outcome.next (writeHomeBase_refused v h)

/-- R175, R177: at phase 999 the millisecond turns over into the next second. -/
theorem millisecondLater_at_999 {s : State} (h : s.clock.phase = 999) :
    millisecondLater s =
      { s with
        clock := { seconds := s.clock.seconds + 1, phase := 0, timeBase := s.clock.timeBase + 1 },
        attn :=
          if (s.clock.seconds + 1).toNat / 86400 ≠ s.clock.seconds.toNat / 86400 then raised .dayRoll s
          else s.attn } := by
  have full : 999 ≤ s.clock.phase := Nat.le_of_eq h.symm
  simp only [millisecondLater, full, if_true, true_and]

/-- R185: no raise is taken in HELD and INITIALIZING. -/
theorem raised_of_closed {s : State} (x : Source) (h : s.isOpen = false) : raised x s = s.attn := by
  simp [raised, h]

/-- R179: a raise that is taken. -/
theorem raised_of_isOpen {s : State} (x : Source) (h : s.isOpen = true) :
    raised x s = { s.attn with pending := s.attn.pending ||| x.bit } := if_pos h

/-- Settles O10: the advance is the millisecond of the idle tick, taken at phase 999. -/
theorem clockAdvance : Obligations.ClockAdvance := by
  intro s
  have advance : s.clock.phase = 999 → exec .clockAdvance s = .next (millisecondLater (dueEvents s)) := fun full =>
    congrArg Host.Outcome.next (clockAdvanceEvent_at_999 s full)
  refine ⟨advance, fun full idle => ?_, fun full idle closed => ?_, fun other => ?_⟩
  · rw [advance full, dueEvents_of_nothingDue s idle, millisecondLater_at_999 full]
  · rw [advance full, dueEvents_of_nothingDue s idle, millisecondLater_at_999 full, raised_of_closed _ closed, ite_self]
  · exact congrArg Host.Outcome.next (if_neg other)

/-- Settles O1: the queue's front command is run, and an empty queue is the idle tick. -/
theorem stepRunsFrontCommand : Obligations.StepRunsFrontCommand := by
  refine ⟨fun c rest s queued => ?_, fun s empty => ?_⟩
  · simp only [step, queued]
    rfl
  · have tick : step s = exec .initialisationComplete (millisecondLater (dueEvents s)) := by
      simp only [step, empty]
      exact congrArg Host.Outcome.next (idleTick_eq s)
    refine ⟨tick, fun idle => ?_⟩
    have later : millisecondLater s =
        { s with
          clock :=
            { seconds := if s.clock.phase < 999 then s.clock.seconds else s.clock.seconds + 1,
              phase := if s.clock.phase < 999 then s.clock.phase + 1 else 0, timeBase := s.clock.timeBase + 1 },
          attn :=
            if 999 ≤ s.clock.phase ∧ (s.clock.seconds + 1).toNat / 86400 ≠ s.clock.seconds.toNat / 86400 then
              raised .dayRoll s
            else s.attn } := by
      by_cases full : 999 ≤ s.clock.phase
      · simp only [millisecondLater, full, Nat.not_lt.mpr full, if_true, if_false]
      · simp only [millisecondLater, full, Nat.lt_of_not_le full, if_true, if_false]
    rw [dueEvents_of_nothingDue s idle, later] at tick
    exact ⟨tick, fun settled => tick.trans (congrArg Host.Outcome.next (if_neg settled))⟩

end Sys2Proof.Machine
end

section
/-! Soundness (R125, R12, R60, R175, R184; R1, R2, R8): one step keeps the settings sound, and it keeps the records sound.
Both are carried through the operations at once, by the preorder `Keeps`. -/

namespace Sys2Proof.Machine

/-! ## The preorder -/

/-- What leads from `s` to `t` keeps the settings sound, and it keeps the records sound. -/
structure Keeps (s t : State) : Prop where
  settings : settingsSound s → settingsSound t
  records : recordsSound s → recordsSound t

/-- R19: a FREE slot is sound. -/
theorem Slot.unused_sound : Slot.unused.sound := ⟨rfl, Nat.zero_le _, fun _ => rfl⟩

/-- R125: the reset values of a bank's class entries are in range. -/
theorem Bank.reset_inRange : Bank.reset.inRange := by
  intro c
  simp only [Bank.reset, Bank.classEntry]
  rw [get_replicate_eq]
  decide

namespace Keeps

variable {s t u : State}

theorem refl (s : State) : Keeps s s := ⟨id, id⟩

theorem trans (h : Keeps s t) (k : Keeps t u) : Keeps s u := ⟨k.settings ∘ h.settings, k.records ∘ h.records⟩

/-- A test chooses between two states, each of them kept. -/
theorem ite {p : Prop} [Decidable p] {u : State} (h : Keeps s t) (k : Keeps s u) : Keeps s (if p then t else u) := by
  split
  · exact h
  · exact k

/-- A fold of steps each of which keeps soundness. -/
theorem foldl {β : Type} {f : State → β → State} (hf : ∀ t b, Keeps t (f t b)) (h : Keeps s t) (l : List β) :
    Keeps s (l.foldl f t) := by
  induction l generalizing t with
  | nil => exact h
  | cons b l ih => exact ih (h.trans (hf t b))

theorem iterate {f : State → State} (hf : ∀ t, Keeps t (f t)) (h : Keeps s t) (n : Nat) : Keeps s (iterate f n t) := by
  induction n generalizing t with
  | zero => exact h
  | succ n ih => exact ih (h.trans (hf t))

/-! ## One update -/

theorem setTaps (h : Keeps s t) (x : Vector (Option TapContext) 12) : Keeps s (t.setTaps x) := ⟨h.settings, h.records⟩
theorem setCtx (h : Keeps s t) (c : CtxNo) (x : Option TapContext) : Keeps s (t.setCtx c x) := ⟨h.settings, h.records⟩
theorem setLines (h : Keeps s t) (x : Vector Line 16) : Keeps s (t.setLines x) := ⟨h.settings, h.records⟩
theorem modLine (h : Keeps s t) (n : LineNo) (f : Line → Line) : Keeps s (t.modLine n f) := ⟨h.settings, h.records⟩
theorem setLineEvents (h : Keeps s t) (x : BitVec 16) : Keeps s (t.setLineEvents x) := ⟨h.settings, h.records⟩
theorem setRecency (h : Keeps s t) (x : List SlotNo) : Keeps s (t.setRecency x) := ⟨h.settings, h.records⟩
theorem setSlotWait (h : Keeps s t) (x : List Waiter) : Keeps s (t.setSlotWait x) := ⟨h.settings, h.records⟩
theorem setCounts (h : Keeps s t) (x : CacheCounts) : Keeps s (t.setCounts x) := ⟨h.settings, h.records⟩
theorem modCounts (h : Keeps s t) (f : CacheCounts → CacheCounts) : Keeps s (t.modCounts f) := ⟨h.settings, h.records⟩
theorem setPool (h : Keeps s t) (x : CellPool) : Keeps s (t.setPool x) := ⟨h.settings, h.records⟩
theorem setRanges (h : Keeps s t) (x : Vector RangeRule 16) : Keeps s (t.setRanges x) := ⟨h.settings, h.records⟩
theorem setLastWatch (h : Keeps s t) (x : LastWatch) : Keeps s (t.setLastWatch x) := ⟨h.settings, h.records⟩
theorem modChange (h : Keeps s t) (f : ChangeUnit → ChangeUnit) : Keeps s (t.modChange f) := ⟨h.settings, h.records⟩
theorem modUrgent (h : Keeps s t) (f : Urgent → Urgent) : Keeps s (t.modUrgent f) := ⟨h.settings, h.records⟩
theorem setMarks (h : Keeps s t) (x : Vector (Option Ident) 16) : Keeps s (t.setMarks x) := ⟨h.settings, h.records⟩
theorem setPeek (h : Keeps s t) (x : PeekWindow) : Keeps s (t.setPeek x) := ⟨h.settings, h.records⟩
theorem setCopies (h : Keeps s t) (x : RegCopies) : Keeps s (t.setCopies x) := ⟨h.settings, h.records⟩
theorem setSlave (h : Keeps s t) (x : Word) : Keeps s (t.setSlave x) := ⟨h.settings, h.records⟩
theorem setFreeIndex (h : Keeps s t) (x : Nat) : Keeps s (t.setFreeIndex x) := ⟨h.settings, h.records⟩

/-- The engine's fields other than Home Base. -/
theorem setEngine (h : Keeps s t) (x : Engine) (base : x.homeBase = t.engine.homeBase) : Keeps s (t.setEngine x) :=
  h.trans ⟨fun ⟨c, b, r⟩ => ⟨c, by simpa only [homeBaseAligned, State.setEngine_engine, base] using b, r⟩, id⟩

/-- The attention fields other than those of the coalescing. -/
theorem setAttn (h : Keeps s t) (x : Attention) (sound : coalescingBounded t → coalescingBounded (t.setAttn x)) :
    Keeps s (t.setAttn x) :=
  h.trans ⟨fun ⟨c, b, f, m, p, a⟩ => ⟨c, b, f, m, p, sound a⟩, id⟩

/-- The port, with no more operations in flight than before. -/
theorem modPort (h : Keeps s t) (f : Port → Port) (room : (f t.port).inFlight.length ≤ t.port.inFlight.length) :
    Keeps s (t.modPort f) :=
  h.trans ⟨fun ⟨c, b, n, r⟩ => ⟨c, b, Nat.le_trans room n, r⟩, id⟩

/-- Slots written so that sound ones stay sound. -/
theorem setSlots (h : Keeps s t) (x : Vector Slot 256) (sound : recordsSound t → ∀ i, (x.get i).sound) :
    Keeps s (t.setSlots x) :=
  h.trans ⟨id, sound⟩

theorem setSlot (h : Keeps s t) (i : SlotNo) (x : Slot) (sound : recordsSound t → x.sound) :
    Keeps s (t.setSlot i x) := by
  refine h.trans ⟨id, fun r j => ?_⟩
  rw [State.slot_setSlot]
  split
  · exact sound r
  · exact r j

theorem modSlot (h : Keeps s t) (i : SlotNo) (f : Slot → Slot) (sound : (t.slot i).sound → (f (t.slot i)).sound) :
    Keeps s (t.modSlot i f) :=
  h.setSlot i _ fun r => sound (r i)

theorem raise (h : Keeps s t) (x : Source) : Keeps s (raise x t) := by
  rw [raise_eq]
  exact h.setAttn _ (by split <;> exact id)

theorem ask (h : Keeps s t) (q : Request) : Keeps s (ask q t) := h.modPort _ (Nat.le_refl _)
theorem touch (h : Keeps s t) (i : SlotNo) : Keeps s (touch i t) := ⟨h.settings, h.records⟩
theorem leaveRecency (h : Keeps s t) (i : SlotNo) : Keeps s (leaveRecency i t) := ⟨h.settings, h.records⟩

/-! ## The port -/

theorem takeBeat (h : Keeps s t) (b : Beat) : Keeps s (takeBeat b t) := by
  unfold Machine.takeBeat
  split
  · exact h.trans ⟨fun ⟨c, e, n, m, r⟩ => ⟨c, e, n, Memory.wf_takeBeat _ _ m, r⟩, id⟩
  · exact h

theorem cutOffBeat (h : Keeps s t) (b : Beat) : Keeps s (cutOffBeat b t) :=
  ite (ite ((h.setFreeIndex _).takeBeat b) (h.setFreeIndex _)) h

theorem leaveBeat (h : Keeps s t) (b : Beat) : Keeps s (leaveBeat b t) := h.modPort _ (Nat.le_refl _)

theorem recordFault (h : Keeps s t) (q : Request) (out : OpOutcome) : Keeps s (recordFault q out t) :=
  (h.modPort _ (Nat.le_refl _)).raise _

theorem endOp (h : Keeps s t) (i : Nat) (o : Op) (out : OpOutcome) : Keeps s (endOp i o out t) := by
  have left : Keeps s (t.modPort fun p => { p with inFlight := p.inFlight.eraseIdx i }) :=
    h.modPort _ (List.length_eraseIdx_le _ _)
  cases out with
  | ok => exact left
  | timeout => exact ((left.cutOffBeat _).leaveBeat _).recordFault _ _
  | busError => exact (left.cutOffBeat _).recordFault _ _
  | parity => exact (left.cutOffBeat _).recordFault _ _

theorem ackBeat (h : Keeps s t) (o : Op) (r : BusResponse) : Keeps s (ackBeat o r t) := by
  cases r with
  | ack => exact h.takeBeat _
  | data w p => exact h
  | error => exact h

theorem ackEnd (h : Keeps s t) (o : Op) (e : BusEnd) : Keeps s (ackEnd o e t) := by
  cases e with
  | response r => exact h.ackBeat o r
  | timeout => exact h

theorem beatResponse (h : Keeps s t) (i : Nat) (r : BusResponse) : Keeps s (beatResponse i r t) := by
  unfold Machine.beatResponse
  split
  · exact h
  · split
    · exact (h.modPort _ (Nat.le_of_eq (List.length_set))).ackBeat _ _
    · exact h

theorem lateResponse (h : Keeps s t) (k : Nat) (r : BusResponse) : Keeps s (lateResponse k r t) := by
  unfold Machine.lateResponse
  split
  · exact h
  · exact ite (ite ((h.modPort _ (Nat.le_refl _)).takeBeat _) (h.modPort _ (Nat.le_refl _))) h

theorem beginOne (h : Keeps s t) : Keeps s (beginOne t) := by
  have bounded : portBounded t → portBounded (Machine.beginOne t) := beginOne_bounded t
  unfold Machine.beginOne at bounded ⊢
  split
  · exact h
  · next q rest waiting =>
    rw [waiting] at bounded
    by_cases room : t.port.inFlight.length < 4
    · simp only [if_pos room] at bounded ⊢
      exact h.trans ⟨fun ⟨c, b, n, r⟩ => ⟨c, b, bounded n, r⟩, id⟩
    · rw [if_neg room]
      exact h

theorem beginRequests (h : Keeps s t) : Keeps s (beginRequests t) := h.beginOne.beginOne.beginOne.beginOne

/-! ## Cells, writes, evictions and fetches -/

theorem returnCells (h : Keeps s t) (i : SlotNo) : Keeps s (returnCells i t) :=
  (h.setPool _).modSlot i _ fun ⟨b, _, _⟩ => ⟨b, Nat.zero_le _, fun _ => rfl⟩

theorem returnCell (h : Keeps s t) (i : SlotNo) (c : CellNo) : Keeps s (returnCell i c t) :=
  (h.setPool _).modSlot i _ fun ⟨b, l, e⟩ =>
    ⟨b, Nat.le_trans (List.length_erase_le) l, fun empty => by
      have none : (t.slot i).cells = [] := e empty
      show ((t.slot i).cells).erase c = []
      rw [none]; rfl⟩

/-- R16: the issue of a write changes nothing of the record but its generation. -/
theorem issueWrite (h : Keeps s t) (i : SlotNo) : Keeps s (issueWrite i t) := (h.modSlot i _ id).ask _

theorem setUnused (h : Keeps s t) (i : SlotNo) : Keeps s (t.setSlot i Slot.unused) :=
  h.setSlot i _ fun _ => Slot.unused_sound

theorem cleanEvict (h : Keeps s t) (i : SlotNo) : Keeps s (cleanEvict i t) := by
  unfold Machine.cleanEvict
  exact (((h.returnCells i).leaveRecency i).setUnused i).modCounts _

theorem beginEvicting (h : Keeps s t) (i : SlotNo) : Keeps s (beginEvicting i t) := (h.leaveRecency i).modSlot i _ id

theorem evictionWrite (h : Keeps s t) (i : SlotNo) (qs : List Requester) : Keeps s (evictionWrite i qs t) := by
  unfold Machine.evictionWrite
  exact ((h.issueWrite i).modSlot i _ id).modCounts _

theorem dirtyEvict (h : Keeps s t) (i : SlotNo) (qs : List Requester) : Keeps s (dirtyEvict i qs t) :=
  (h.beginEvicting i).evictionWrite i qs

theorem oweEviction (h : Keeps s t) (i : SlotNo) (q : Requester) : Keeps s (oweEviction i q t) :=
  (h.beginEvicting i).modSlot i _ id

theorem evictFor (h : Keeps s t) (i : SlotNo) (q : Requester) : Keeps s (evictFor i q t) :=
  ite (h.oweEviction i q) (h.dirtyEvict i [q])

theorem flushWrite (h : Keeps s t) (i : SlotNo) (qs : List Requester) : Keeps s (flushWrite i qs t) :=
  (h.issueWrite i).modSlot i _ id

theorem placeFlush (h : Keeps s t) (i : SlotNo) (q : Requester) : Keeps s (placeFlush i q t) :=
  ite (h.modSlot i _ id) (h.flushWrite i [q])

theorem startFetch (h : Keeps s t) (i : SlotNo) (k : Key) (ws : List Waiter) : Keeps s (startFetch i k ws t) := by
  unfold Machine.startFetch
  exact
    ((h.setSlot i { Slot.unused with state := .fetching, key := k, waiting := ws } fun _ => Slot.unused_sound).modCounts
      _).ask _

theorem setAwait (h : Keeps s t) (b : Bool) (w : Waiter) : Keeps s (setAwait b w t) := by
  unfold Machine.setAwait
  split
  · split
    · exact h.setCtx _ _
    · exact h
  · exact h

theorem awaitAll (h : Keeps s t) (ws : List Waiter) : Keeps s (awaitAll ws t) :=
  h.foldl (fun t w => (refl t).setAwait true w) ws

theorem handOver (h : Keeps s t) (i : SlotNo) : Keeps s (handOver i t) := by
  unfold Machine.handOver
  split
  · exact h
  · exact ((h.setSlotWait _).awaitAll _).startFetch _ _ _

theorem joinWaiting (h : Keeps s t) (i : SlotNo) (w : Waiter) : Keeps s (joinWaiting i w t) :=
  ite ((((h.modSlot i _ id).setAwait true w).modSlot i _ id).modCounts _) ((h.modSlot i _ id).setAwait true w)

theorem joinSlotWait (h : Keeps s t) (w : Waiter) : Keeps s (joinSlotWait w t) := (h.setSlotWait _).setAwait false w

theorem seekDirtyVictim (h : Keeps s t) : Keeps s (seekDirtyVictim t) := by
  unfold Machine.seekDirtyVictim
  split
  · exact h.dirtyEvict _ _
  · exact h.raise _

theorem miss (h : Keeps s t) (k : Key) (w : Waiter) : Keeps s (miss k w t) := by
  unfold Machine.miss
  split
  · exact h.joinSlotWait w
  · split
    · exact (h.setAwait true w).startFetch _ _ _
    · split
      · exact ((h.cleanEvict _).setAwait true w).startFetch _ _ _
      · exact (h.joinSlotWait w).seekDirtyVictim

/-- Every slot changed in fields that soundness does not read. -/
theorem mapSlots (h : Keeps s t) (f : Slot → Slot) (sound : ∀ x, x.sound → (f x).sound) :
    Keeps s (t.setSlots (t.slots.map f)) :=
  h.setSlots _ fun r i => by
    rw [get_map_eq]
    exact sound _ (r i)

theorem withdraw (h : Keeps s t) (w : Waiter) : Keeps s (withdraw w t) := by
  have slots := h.mapSlots (fun x => { x with waiting := x.waiting.filter (· != w) }) fun _ sound => sound
  exact slots.setSlotWait _

theorem addPass (h : Keeps s t) (w : Waiter) : Keeps s (addPass w t) :=
  h.mapSlots _ fun x sound => by
    split <;> exact sound

theorem reclaimOne (h : Keeps s t) : Keeps s (reclaimOne t) := by
  unfold Machine.reclaimOne
  split
  · exact h
  · split
    · exact (h.cleanEvict _).handOver _
    · exact h

theorem reclaimRun (h : Keeps s t) : Keeps s (reclaimRun t) := h.iterate (fun t => (refl t).reclaimOne) _

theorem cleanerOne (h : Keeps s t) : Keeps s (cleanerOne t) := by
  unfold Machine.cleanerOne
  split
  · split
    · exact ((h.flushWrite _ _).modSlot _ _ id).modCounts _
    · exact h
  · exact h

theorem freeClean (h : Keeps s t) (own : SlotNo) (n : Nat) (l : List SlotNo) : Keeps s (freeClean own n l t) := by
  induction l generalizing t with
  | nil => exact h
  | cons i l ih => exact ite (ih ((h.cleanEvict i).handOver i)) (ih h)

theorem freeCleanFor (h : Keeps s t) (own : SlotNo) (n : Nat) : Keeps s (freeCleanFor own n t) := h.freeClean _ _ _

theorem evictForCells (h : Keeps s t) (need : Nat) (l : List SlotNo) : Keeps s (evictForCells need l t) := by
  induction l generalizing need t with
  | nil => exact h
  | cons i l ih => exact ite (ih (h.dirtyEvict i []) _) (ih h _)

end Keeps
end Sys2Proof.Machine
end

section
/-! Soundness, continued: resolution, the record commands, the serving of a waiting list, the ends of operations, and the
tests at the end of an event. -/

namespace Sys2Proof.Machine

/-! ## What resolution makes of a balance -/

theorem balanceInRange_iff (b : Int) : balanceInRange b = true ↔ -65535 ≤ b ∧ b ≤ 16777215 := by
  simp [balanceInRange]

/-- R109, R117: a balance that a debit does not overdraw stays in range. -/
theorem balanceInRange_debit {v : TapView} {b : Int} {fare : Half} (h : overdrawn v b fare = false)
    (inRange : balanceInRange b = true) : balanceInRange (b - fare.toNat) = true := by
  have bound := v.entry.overdraft.isLt
  simp only [overdrawn, decide_eq_false_iff_not, Int.not_lt] at h
  rw [balanceInRange_iff] at inRange ⊢
  omega

theorem refill_balance (v : TapView) (r : Record) : (refill v r).balance = r.balance := by
  simp only [refill]
  split
  · rfl
  · split <;> rfl

theorem refill_state (v : TapView) (r : Record) : (refill v r).state = r.state := by
  simp only [refill]
  split
  · rfl
  · split <;> rfl

theorem closeTrip_state (v : TapView) (r : Record) : (closeTrip v r).state = r.state := by
  rw [closeTrip]
  split <;> rfl

/-- R109: closing an open trip that is not overdrawn keeps the balance in range. -/
theorem closeTrip_inRange {v : TapView} {r : Record}
    (h : ¬ ((r.trip == .within && overdrawn v r.balance v.entry.unmatched) = true))
    (inRange : balanceInRange r.balance = true) : balanceInRange (closeTrip v r).balance = true := by
  unfold closeTrip
  split
  · next open_ =>
    have free : overdrawn v r.balance v.entry.unmatched = false := by simpa [open_] using h
    exact balanceInRange_debit free inRange
  · exact inRange

/-- R118: what an accepted entry leaves of the record's state, and of its balance's range. -/
theorem resolveEntry_ok {v : TapView} {r : Record} {a : Accepted} (h : resolveEntry v r = .ok a) :
    a.record.state = r.state ∧ (balanceInRange r.balance = true → balanceInRange a.record.balance = true) := by
  unfold resolveEntry at h
  split at h
  · exact absurd h nofun
  split at h
  · exact absurd h nofun
  next solvent =>
    dsimp only at h
    split at h
    · exact absurd h nofun
    split at h
    · exact absurd h nofun
    obtain rfl := Except.ok.inj h
    refine ⟨(refill_state v _).trans (closeTrip_state v r), fun inRange => ?_⟩
    show balanceInRange (refill v (closeTrip v r)).balance = true
    rw [refill_balance]
    exact closeTrip_inRange solvent inRange

theorem debit_ok {v : TapView} {r : Record} {fare : Half} {a : Accepted} (h : debit v r fare = .ok a) :
    a.record.state = r.state ∧ (balanceInRange r.balance = true → balanceInRange a.record.balance = true) := by
  unfold debit at h
  split at h
  · exact absurd h nofun
  next solvent =>
    obtain rfl := Except.ok.inj h
    exact ⟨rfl, balanceInRange_debit (by simpa using solvent)⟩

theorem resolveExit_ok {v : TapView} {r : Record} {a : Accepted} (h : resolveExit v r = .ok a) :
    a.record.state = r.state ∧ (balanceInRange r.balance = true → balanceInRange a.record.balance = true) := by
  unfold resolveExit at h
  split at h
  · split at h
    · obtain rfl := Except.ok.inj h
      exact ⟨rfl, id⟩
    · exact debit_ok h
  · exact debit_ok h

/-- R104, R118: an accepted tap keeps the record's state and its balance in range. -/
theorem resolve_ok {v : TapView} {x : Ident} {r : Record} {a : Accepted} (h : resolve v x r = .ok a) :
    a.record.state = r.state ∧ (balanceInRange r.balance = true → balanceInRange a.record.balance = true) := by
  unfold resolve at h
  split at h
  · exact absurd h nofun
  split at h
  · exact absurd h nofun
  split at h
  · exact absurd h nofun
  split at h
  · exact resolveEntry_ok h
  · exact resolveExit_ok h

theorem refusedRecord_state (why : Reason) (watch : Bool) (r : Record) : (refusedRecord why watch r).state = r.state := by
  rw [refusedRecord]
  split <;> rfl

theorem refusedRecord_balance (why : Reason) (watch : Bool) (r : Record) :
    (refusedRecord why watch r).balance = r.balance := by
  rw [refusedRecord]
  split <;> rfl

/-! ## The records that commands and images give -/

theorem decodeProducts_length {l : List Byte} {off n : Nat} {ps : List ProductEntry}
    (h : decodeProducts l off n = some ps) : ps.length = n := by
  induction n generalizing off ps with
  | zero =>
    obtain rfl := Option.some.inj h
    rfl
  | succ n ih =>
    unfold decodeProducts at h
    split at h
    · next p qs _ rest =>
      obtain rfl := Option.some.inj h
      rw [List.length_cons, ih rest]
    · exact absurd h nofun

/-- R152: the flags of an AMEND, each on its own fields. -/
theorem amendedRecord_eq (b : Block) (s : State) (r : Record) :
    amendedRecord b s r =
      { r with
        fareClass := if (byteAt b.payload 0)[0] then Fin.ofNat 8 (byteAt b.payload 1).toNat else r.fareClass,
        trip := if (byteAt b.payload 0)[1] then .out else r.trip,
        tokens :=
          if (byteAt b.payload 0)[2] then
            burstOf s (if (byteAt b.payload 0)[0] then Fin.ofNat 8 (byteAt b.payload 1).toNat else r.fareClass)
          else r.tokens,
        refillMark := if (byteAt b.payload 0)[2] then s.clock.seconds else r.refillMark,
        deadlinePasses := if (byteAt b.payload 0)[3] then 0 else r.deadlinePasses,
        blockedTaps := if (byteAt b.payload 0)[3] then 0 else r.blockedTaps,
        watchHits := if (byteAt b.payload 0)[3] then 0 else r.watchHits } := by
  simp only [amendedRecord]
  cases (byteAt b.payload 0)[0] <;> cases (byteAt b.payload 0)[1] <;> cases (byteAt b.payload 0)[2] <;>
    cases (byteAt b.payload 0)[3] <;> rfl

/-- R151: what the checks of ENROLL have settled. -/
theorem enrollArgs_some {b : Block} {c : ClassNo} {ps : List ProductEntry} (h : enrollArgs b = some (c, ps)) :
    balanceInRange (wordAt b.payload 4).toInt = true ∧ ps.length ≤ 12 := by
  unfold enrollArgs at h
  dsimp only at h
  split at h
  · split at h
    · next valid =>
      obtain ⟨_, few, inRange⟩ := valid
      obtain ⟨qs, decoded, same⟩ := Option.map_eq_some_iff.mp h
      obtain ⟨_, rfl⟩ := Prod.mk.inj same
      rw [List.length_map, decodeProducts_length decoded]
      exact ⟨inRange, few⟩
    · exact absurd h nofun
  · exact absurd h nofun

/-- R13, R8: a valid image's record and products make a sound slot. -/
theorem decodeImage_valid {l : List Byte} {r : Record} {ps : List ProductEntry} (h : decodeImage l = .valid r ps) :
    balanceInRange r.balance = true ∧ ps.length ≤ 12 ∧ (r.state = .empty → ps = []) := by
  unfold decodeImage at h
  split at h
  · obtain ⟨rfl, rfl⟩ := Fetched.valid.inj h
    exact ⟨rfl, Nat.zero_le _, fun _ => rfl⟩
  · split at h
    · next valid =>
      split at h
      · next qs decoded =>
        obtain ⟨rfl, rfl⟩ := Fetched.valid.inj h
        simp only [coreValid, Bool.and_eq_true, decide_eq_true_eq] at valid
        obtain ⟨⟨⟨⟨⟨⟨_, few⟩, inRange⟩, _⟩, _⟩, _⟩, _⟩ := valid
        refine ⟨inRange, by rw [decodeProducts_length decoded]; exact few, fun empty => ?_⟩
        simp only [decodeCore] at empty
        split at empty <;> exact absurd empty nofun
      · exact absurd h nofun
    · exact absurd h nofun

/-! ## The record of a slot -/

/-- R150: ENROLL passes the identity and state check on an EMPTY record. -/
theorem identityCheck_enroll_none {x : Ident} {r : Record} (h : identityCheck .enroll x r = none) : r.state = .empty := by
  rw [identityCheck, if_pos rfl] at h
  split at h
  · assumption
  · split at h <;> exact absurd h nofun

/-- R150: the other record commands pass it on the card's own record. -/
theorem identityCheck_none {c : ChangeCommand} {x : Ident} {r : Record} (other : c ≠ .enroll)
    (h : identityCheck c x r = none) : r.state ≠ .empty ∧ r.ident = x := by
  rw [identityCheck, if_neg other] at h
  split at h
  · exact absurd h nofun
  next held =>
    split at h
    · exact absurd h nofun
    · next own => exact ⟨held, not_not.mp own⟩

/-- R53: the freeing of clean slots leaves the slot that the cells are wanted for. -/
theorem freeCleanFor_own (own : SlotNo) (n : Nat) (s : State) : (freeCleanFor own n s).slot own = s.slot own := by
  have course : ∀ (l : List SlotNo) (s : State), (freeClean own n l s).slot own = s.slot own := by
    intro l
    induction l with
    | nil => exact fun _ => rfl
    | cons i l ih =>
      intro s
      unfold freeClean
      split
      · next victim =>
        simp only [Bool.and_eq_true, bne_iff_ne] at victim
        obtain ⟨⟨⟨_, other⟩, _⟩, _⟩ := victim
        rw [ih, handOver_slot_ne _ _ _ (Ne.symm other), cleanEvict_slot_ne _ _ _ (Ne.symm other)]
      · exact ih s
  exact course _ s

end Sys2Proof.Machine
end

section
/-! Soundness through resolution, the record commands and the serving of a waiting list. -/

namespace Sys2Proof.Machine
namespace Keeps

variable {s t : State}

/-! ## Resolution -/

theorem deliver (h : Keeps s t) (n : LineNo) (v : Verdict) : Keeps s (deliver n v t) := h.modLine _ _

theorem writePaid (h : Keeps s t) (i : SlotNo) (p : Option (Nat × ProductEntry)) : Keeps s (writePaid i p t) := by
  unfold Machine.writePaid
  split
  · exact h
  · split
    · exact h.setPool _
    · exact h

theorem resolveAt (h : Keeps s t) (i : SlotNo) (x : TapContext) : Keeps s (resolveAt i x t) := by
  unfold Machine.resolveAt
  dsimp only
  split
  · next a accepted =>
    obtain ⟨state, balance⟩ := resolve_ok accepted
    exact (((h.modSlot i _ fun ⟨b, l, e⟩ => ⟨balance b, l, fun m => e (state ▸ m)⟩).writePaid i _).touch i).deliver _ _
  · next why _ =>
    refine ((h.modSlot i _ fun ⟨b, l, e⟩ => ⟨?_, l, fun m => e ?_⟩).touch i).deliver _ _
    · exact (refusedRecord_balance _ _ _).symm ▸ b
    · exact refusedRecord_state why _ _ ▸ m

theorem answerTap (h : Keeps s t) (c : CtxNo) (o : VOutcome) (why : Reason) : Keeps s (answerTap c o why t) := by
  unfold Machine.answerTap
  split
  · exact h
  · exact (h.setCtx _ _).deliver _ _

theorem resolveWaiting (h : Keeps s t) (i : SlotNo) (c : CtxNo) : Keeps s (resolveWaiting i c t) := by
  unfold Machine.resolveWaiting
  split
  · exact h
  · exact (h.setCtx _ _).resolveAt _ _

/-! ## Statuses and answers -/

theorem storeStatus (h : Keeps s t) (c : Status) (result : Word) : Keeps s (storeStatus c result t) :=
  (h.modChange _).ask _

theorem finishUrgent (h : Keeps s t) (r : UrgentResult) (value : Half) : Keeps s (finishUrgent r value t) :=
  (h.modUrgent _).raise _

theorem removeMark (h : Keeps s t) (x : Ident) : Keeps s (removeMark x t) := h.setMarks _

theorem answerFlushAll (h : Keeps s t) (ok : Bool) : Keeps s (answerFlushAll ok t) :=
  ite ((h.modChange _).storeStatus _ _) (h.modChange _)

theorem answer (h : Keeps s t) (ok : Bool) (g : Half) (q : Requester) : Keeps s (answer ok g q t) := by
  cases q with
  | changeFlush => exact h.storeStatus _ _
  | flushAll => exact h.answerFlushAll ok
  | retire => exact h.storeStatus _ _
  | urgent => exact h.finishUrgent _ _
  | drain => exact h

theorem answerAll (h : Keeps s t) (ok : Bool) (g : Half) (qs : List Requester) : Keeps s (answerAll ok g qs t) :=
  h.foldl (fun t q => (refl t).answer ok g q) qs

/-! ## The record commands -/

/-- A record amended within the balance range, that does not become EMPTY. -/
theorem amendRecord (h : Keeps s t) (i : SlotNo) (f : Record → Record)
    (balance : balanceInRange (t.slot i).record.balance = true →
      balanceInRange (f (t.slot i).record).balance = true)
    (state : (f (t.slot i).record).state = .empty → (t.slot i).record.state = .empty) :
    Keeps s (amendRecord i f t) :=
  h.modSlot i _ fun ⟨b, l, e⟩ => ⟨balance b, l, fun m => e (state m)⟩

/-- Cells are taken, up to twelve in all, for a record that stands in range and not EMPTY once amended. -/
theorem amendRecord_takeCells (h : Keeps s t) (i : SlotNo) (f : Record → Record) (ps : List ProductEntry)
    (balance : balanceInRange (t.slot i).record.balance = true →
      balanceInRange (f (t.slot i).record).balance = true)
    (state : (f (t.slot i).record).state ≠ .empty)
    (few : (t.slot i).sound → (t.slot i).cells.length + ps.length ≤ 12) :
    Keeps s (Machine.amendRecord i f (takeCells i ps t)) := by
  have slots : ∀ j, (Machine.amendRecord i f (takeCells i ps t)).slot j =
      if j = i then
        { t.slot i with
          cells := (t.slot i).cells ++ t.pool.free.take ps.length, record := f (t.slot i).record, dirty := true }
      else t.slot j := by
    intro j
    rw [Machine.amendRecord, State.slot_modSlot, takeCells_slot]
    split
    · rfl
    · next other => exact takeCells_slot_ne _ _ _ _ other
  refine h.trans ⟨id, fun r j => ?_⟩
  rw [slots]
  split
  · obtain ⟨b, _, _⟩ := r i
    refine ⟨balance b, ?_, fun m => absurd m state⟩
    rw [List.length_append, List.length_take]
    exact Nat.le_trans (Nat.add_le_add_left (Nat.min_le_left _ _) _) (few (r i))
  · exact r j

theorem refuseCellShort (h : Keeps s t) (result : Word) : Keeps s (refuseCellShort result t) :=
  (h.storeStatus _ _).raise _

theorem applyEnroll (h : Keeps s t) (i : SlotNo) (empty : (t.slot i).record.state = .empty) :
    Keeps s (applyEnroll i t) := by
  unfold Machine.applyEnroll
  split
  · exact h.storeStatus _ _
  · next c ps args =>
    obtain ⟨inRange, few⟩ := enrollArgs_some args
    refine ite (((h.freeCleanFor i _).amendRecord_takeCells i _ ps ?_ ?_ ?_).storeStatus _ _)
      ((h.freeCleanFor i _).refuseCellShort _)
    · exact fun _ => inRange
    · exact nofun
    · rintro ⟨_, _, cells⟩
      rw [freeCleanFor_own] at cells ⊢
      rw [cells empty]
      simpa using few

theorem applyAmend (h : Keeps s t) (i : SlotNo) : Keeps s (applyAmend i t) := by
  have amended : Keeps s (Machine.amendRecord i (amendedRecord t.change.block t) t) := by
    refine h.amendRecord i _ ?_ ?_ <;> rw [amendedRecord_eq] <;> exact id
  exact ite (amended.storeStatus _ _) (h.storeStatus _ _)

theorem applyAdjust (h : Keeps s t) (i : SlotNo) : Keeps s (applyAdjust i t) := by
  unfold Machine.applyAdjust
  dsimp only
  split
  · next inRange => exact (h.amendRecord i _ (fun _ => inRange) id).storeStatus _ _
  · exact h.storeStatus _ _

theorem applyAddProduct (h : Keeps s t) (i : SlotNo) (held : (t.slot i).record.state ≠ .empty) :
    Keeps s (applyAddProduct i t) := by
  unfold Machine.applyAddProduct
  split
  · exact h.storeStatus _ _
  next room =>
    split
    · exact h.storeStatus _ _
    · refine ite (((h.freeCleanFor i 1).amendRecord_takeCells i id _ id ?_ ?_).storeStatus _ _)
        ((h.freeCleanFor i 1).refuseCellShort _)
      · rw [freeCleanFor_own]
        exact held
      · rw [freeCleanFor_own]
        intro _
        simp only [List.length_cons, List.length_nil]
        omega

theorem applyRemoveProduct (h : Keeps s t) (i : SlotNo) : Keeps s (applyRemoveProduct i t) := by
  unfold Machine.applyRemoveProduct
  split
  · exact h.storeStatus _ _
  · exact ((h.returnCell i _).amendRecord i id id id).storeStatus _ _

theorem applyBlock (h : Keeps s t) (i : SlotNo) : Keeps s (applyBlock i t) :=
  (h.amendRecord i _ id fun m => absurd (show RecState.blocked = .empty from m) (by decide)).storeStatus _ _

theorem applyUnblock (h : Keeps s t) (i : SlotNo) : Keeps s (applyUnblock i t) :=
  ((h.amendRecord i _ id fun m => absurd (show RecState.active = .empty from m) (by decide)).removeMark _).storeStatus _ _

theorem applyRetire (h : Keeps s t) (i : SlotNo) : Keeps s (applyRetire i t) := by
  have emptied : Keeps s (Machine.amendRecord i (fun r => Record.empty r.generation) (Machine.returnCells i t)) := by
    refine (h.returnCells i).modSlot i _ fun _ => ⟨rfl, ?_, fun _ => ?_⟩
    all_goals simp [Machine.returnCells]
  exact ((emptied.removeMark (t.slot i).record.ident).evictFor i .retire).modChange fun u => { u with state := .storing }

theorem applyFlush (h : Keeps s t) (i : SlotNo) : Keeps s (applyFlush i t) :=
  ite (h.storeStatus _ _) ((h.placeFlush i _).modChange _)

theorem applyChecked (h : Keeps s t) (c : ChangeCommand) (i : SlotNo) {x : Ident}
    (passed : identityCheck c x (t.slot i).record = none) : Keeps s (applyChecked c i t) := by
  cases c with
  | enroll => exact h.applyEnroll i (identityCheck_enroll_none passed)
  | amend => exact h.applyAmend i
  | adjust => exact h.applyAdjust i
  | addProduct => exact h.applyAddProduct i (identityCheck_none (by decide) passed).1
  | removeProduct => exact h.applyRemoveProduct i
  | block => exact h.applyBlock i
  | unblock => exact h.applyUnblock i
  | retire => exact h.applyRetire i
  | flush => exact h.applyFlush i
  | nop | flushAll | setRange | loadClass | loadFares | copyActive | switchTariff => exact h

theorem applyCommand (h : Keeps s t) (c : ChangeCommand) (i : SlotNo) : Keeps s (applyCommand c i t) := by
  unfold Machine.applyCommand
  split
  · exact (h.touch i).storeStatus _ _
  · next passed => exact (h.touch i).applyChecked c i passed

/-! ## Serving -/

theorem takeEntry (h : Keeps s t) (i : SlotNo) (w : Waiter) : Keeps s (takeEntry i w t) := by
  cases w with
  | tap c => exact h.resolveWaiting i c
  | change =>
    show Keeps s (applyWaiting i t)
    unfold applyWaiting
    split
    · exact h.applyCommand _ i
    · exact h

theorem keepBehindRetire (h : Keeps s t) (i : SlotNo) (ws : List Waiter) : Keeps s (keepBehindRetire i ws t) := by
  cases ws with
  | nil => exact h
  | cons w ws =>
    unfold Machine.keepBehindRetire
    exact (h.modSlot i (fun x => { x with waiting := w :: ws, rescued := true }) id).modCounts _

theorem serve (h : Keeps s t) (i : SlotNo) (ws : List Waiter) : Keeps s (serve i ws t) := by
  induction ws generalizing t with
  | nil => exact h
  | cons w ws ih => exact ite (ih (h.takeEntry i w)) ((h.takeEntry i w).keepBehindRetire i ws)

theorem answerWaiters (h : Keeps s t) (o : VOutcome) (why : Reason) (c : Status) (ws : List Waiter) :
    Keeps s (answerWaiters o why c ws t) := by
  refine h.foldl (fun t w => ?_) ws
  cases w with
  | tap x => exact (refl t).answerTap _ _ _
  | change => exact (refl t).storeStatus _ _

end Keeps
end Sys2Proof.Machine
end

section
/-! Soundness through the ends of operations, the tests at the end of an event, and the units' own commands. -/

namespace Sys2Proof.Machine
namespace Keeps

variable {s t : State}

/-! ## The ends of fetches and writes -/

/-- R31, R8: a valid image's record enters its slot with its cells. -/
theorem enterRecord (h : Keeps s t) (i : SlotNo) {r : Record} {ps : List ProductEntry}
    (balance : balanceInRange r.balance = true) (few : ps.length ≤ 12) (empty : r.state = .empty → ps = []) :
    Keeps s (enterRecord i r ps t) := by
  refine h.trans ⟨id, fun sound j => ?_⟩
  have slots : (Machine.enterRecord i r ps t).slot j =
      if j = i then
        { Slot.unused with
          state := .resident, key := (t.slot i).key, record := r, cells := t.pool.free.take ps.length }
      else t.slot j := by
    show (takeCells i ps _).slot j = _
    by_cases own : j = i
    · subst own
      rw [if_pos rfl, takeCells_slot, State.slot_setSlot_same]
      rfl
    · rw [if_neg own, takeCells_slot_ne _ _ _ _ own, State.slot_setSlot_ne _ _ own]
  rw [slots]
  split
  · refine ⟨balance, Nat.le_trans (List.length_take_le _ _) few, fun e => ?_⟩
    show t.pool.free.take ps.length = []
    rw [empty e]
    rfl
  · exact sound j

theorem applyMark (h : Keeps s t) (i : SlotNo) : Keeps s (applyMark i t) :=
  ite ((h.amendRecord i _ id fun m => absurd (show RecState.blocked = .empty from m) (by decide)).removeMark _) h

theorem foldPasses (h : Keeps s t) (i : SlotNo) (passes : Byte) : Keeps s (foldPasses i passes t) :=
  ite h (h.amendRecord i _ id id)

theorem fetchDamaged (h : Keeps s t) (i : SlotNo) : Keeps s (fetchDamaged i t) :=
  (((h.setUnused i).handOver i).answerWaiters _ _ _ _).raise _

theorem fetchShort (h : Keeps s t) (i : SlotNo) (n : Nat) : Keeps s (fetchShort i n t) :=
  (((((h.evictForCells _ _).setUnused i).answerWaiters _ _ _ _).raise _).handOver i)

theorem fetchDone (h : Keeps s t) (i : SlotNo) (words : List Word) : Keeps s (fetchDone i words t) := by
  unfold Machine.fetchDone
  split
  · exact h.fetchDamaged i
  · next r ps valid =>
    obtain ⟨balance, few, empty⟩ := decodeImage_valid valid
    exact ite (((((h.freeCleanFor i _).enterRecord i balance few empty).applyMark i).foldPasses i _).serve i _)
      ((h.freeCleanFor i _).fetchShort i _)

theorem fetchFailed (h : Keeps s t) (i : SlotNo) : Keeps s (fetchFailed i t) :=
  ((h.setUnused i).answerWaiters _ _ _ _).handOver i

theorem returnToResident (h : Keeps s t) (i : SlotNo) (ok : Bool) : Keeps s (returnToResident i ok t) :=
  (h.modSlot i _ id).touch i

theorem seekAfterReclaim (h : Keeps s t) : Keeps s (seekAfterReclaim t) := ite h.reclaimRun h.reclaimRun.seekDirtyVictim

theorem evictionDone (h : Keeps s t) (i : SlotNo) (ok : Bool) : Keeps s (evictionDone i ok t) :=
  ite ((((h.returnCells i).setUnused i).handOver i).answerAll _ _ _)
    ((((h.returnToResident i ok).serve i _).answerAll _ _ _).seekAfterReclaim)

theorem clearFlush (h : Keeps s t) (i : SlotNo) : Keeps s (clearFlush i t) :=
  ite ((h.modSlot i _ id).modCounts _) (h.modSlot i _ id)

theorem settleNext (h : Keeps s t) (i : SlotNo) (g : Half) : Keeps s (settleNext i g t) :=
  ite h (ite (h.flushWrite i _) ((h.modSlot i _ id).answerAll _ _ _))

theorem flushDone (h : Keeps s t) (i : SlotNo) (ok : Bool) : Keeps s (flushDone i ok t) := by
  have cleared : Keeps s (Machine.answerAll ok (t.slot i).record.generation (t.slot i).writeReqs (Machine.clearFlush i t)) :=
    (h.clearFlush i).answerAll _ _ _
  refine ite (ite (ite ?_ ?_) ?_) ?_
  · exact ((cleared.returnToResident i true).serve i _).answerAll _ _ _
  · exact ((cleared.cleanEvict i).handOver i).answerAll _ _ _
  · exact cleared.evictionWrite i _
  · exact (((h.clearFlush i).modSlot i _ id).answerAll _ _ _).settleNext i _

/-! ## The tests at the end of an event -/

theorem drainSlot (h : Keeps s t) (i : SlotNo) : Keeps s (drainSlot i t) :=
  ite (ite (h.oweEviction i _) (ite (h.dirtyEvict i _) ((h.cleanEvict i).handOver i))) h

theorem evictAllSlots (h : Keeps s t) : Keeps s (evictAllSlots t) :=
  (h.setEngine { t.engine with phase := .emptying } rfl).foldl (fun t i => (refl t).drainSlot i) _

theorem evictAllTest (h : Keeps s t) : Keeps s (evictAllTest t) := ite h.evictAllSlots h

theorem drainEvictions (h : Keeps s t) : Keeps s (drainEvictions t) :=
  ite (h.foldl (fun t i => ite (refl t) ((refl t).drainSlot i)) _) h

theorem finishDrain (h : Keeps s t) : Keeps s (finishDrain t) := by
  have stopped : Keeps s
      (t.setEngine
        { t.engine with
          state := .stopped, phase := .none,
          unflushed := slotCount (fun x => x.state == .resident && x.wbFault) t }) := h.setEngine _ rfl
  exact stopped.raise _

theorem settle (h : Keeps s t) : Keeps s (settle t) :=
  (ite h.reclaimRun.evictAllTest.drainEvictions.finishDrain
    h.reclaimRun.evictAllTest.drainEvictions).cleanerOne.cleanerOne.beginRequests

/-! ## The Change Unit -/

theorem readBlock (h : Keeps s t) (a : Word) : Keeps s (readBlock a t) := (h.modChange _).ask _

theorem stopUnit (h : Keeps s t) (x : ChangeState) : Keeps s (stopUnit x t) := (h.modChange _).raise _

theorem haltUnit (h : Keeps s t) : Keeps s (haltUnit t) := h.modChange _

theorem controlStart (h : Keeps s t) : Keeps s (controlStart t) :=
  ite h (ite (((h.modChange _).modChange _).readBlock _).settle (h.modChange _))

theorem controlResume (h : Keeps s t) : Keeps s (controlResume t) :=
  ite h (ite ((h.modChange _).readBlock _).settle
    (ite (((h.modChange _).modChange _).readBlock _).settle (h.modChange _)))

theorem controlSuspend (h : Keeps s t) : Keeps s (controlSuspend t) :=
  ite h (ite ((h.modChange _).modChange _) (h.modChange _))

theorem abandonRead (h : Keeps s t) : Keeps s (abandonRead t) := by
  unfold Machine.abandonRead
  exact ((h.modPort _ (by simp)).modChange _).stopUnit _

theorem abortWaiting (h : Keeps s t) : Keeps s (abortWaiting t) := ((h.withdraw _).modChange _).storeStatus _ _

theorem controlAbort (h : Keeps s t) : Keeps s (controlAbort t) := by
  unfold Machine.controlAbort
  refine ite h ?_
  split
  · exact ite (h.modChange _) (h.modChange _).abandonRead.settle
  · exact (h.modChange _).abortWaiting.settle
  · exact (h.modChange _).modChange _
  all_goals exact h.modChange _

theorem controlUnknown (h : Keeps s t) : Keeps s (controlUnknown t) := ite (h.modChange _) h

theorem runFlushAll (h : Keeps s t) : Keeps s (runFlushAll t) := by
  unfold Machine.runFlushAll
  dsimp only
  split
  · exact h.storeStatus _ _
  · exact (h.foldl (fun t i => (refl t).placeFlush i .flushAll) _).modChange _

theorem requestRecord (h : Keeps s t) (c : ChangeCommand) : Keeps s (requestRecord c t) := by
  unfold Machine.requestRecord
  dsimp only
  split
  · exact ite ((h.modChange _).applyCommand _ _) (((h.modChange _).modChange _).joinWaiting _ _)
  · exact ((h.modChange _).modChange _).miss _ _

/-- The Tariff Unit, with both banks in range. -/
theorem setTariff (h : Keeps s t) (x : Tariff) (sound : tariffInRange t → tariffInRange (t.setTariff x)) :
    Keeps s (t.setTariff x) :=
  h.trans ⟨fun ⟨c, r⟩ => ⟨sound c, r⟩, id⟩

/-- R127: the shadow bank written with one in range. -/
theorem setShadow (h : Keeps s t) (b : Bank) (sound : tariffInRange t → b.inRange) :
    Keeps s (t.setTariff (t.tariff.setShadow b)) := by
  refine h.setTariff _ fun banks => ?_
  unfold tariffInRange Tariff.setShadow
  split
  · exact ⟨sound banks, banks.2⟩
  · exact ⟨banks.1, sound banks⟩

theorem shadow_inRange (banks : tariffInRange t) : t.tariff.shadow.inRange := by
  unfold Tariff.shadow
  split
  · exact banks.1
  · exact banks.2

theorem active_inRange (banks : tariffInRange t) : t.tariff.active.inRange := by
  unfold Tariff.active
  split
  · exact banks.2
  · exact banks.1

theorem loadClass (h : Keeps s t) (b : Block) : Keeps s (loadClass b t).1 := by
  unfold Machine.loadClass
  dsimp only
  split
  · next index =>
    split
    · next inRange =>
      refine h.setShadow _ fun banks c => ?_
      by_cases own : c = ⟨b.index, index⟩
      · subst own
        unfold Bank.classEntry
        rw [get_set_eq _ ⟨b.index, index⟩]
        exact inRange
      · unfold Bank.classEntry
        rw [get_set_ne _ (i := ⟨b.index, index⟩) _ own]
        exact shadow_inRange banks c
    · exact h
  · exact h

theorem loadFares (h : Keeps s t) (b : Block) : Keeps s (loadFares b t).1 :=
  h.setShadow _ fun banks => shadow_inRange banks

theorem copyActive (h : Keeps s t) : Keeps s (copyActive t).1 := h.setShadow _ active_inRange

theorem switchTariff (h : Keeps s t) : Keeps s (switchTariff t).1 := h.setTariff _ id

theorem setRange (h : Keeps s t) (b : Block) : Keeps s (setRange b t).1 := by
  unfold Machine.setRange
  split
  · split
    · exact h.setRanges _
    · exact h
  · exact h

theorem runCommand (h : Keeps s t) (c : ChangeCommand) : Keeps s (runCommand c t) := by
  cases c with
  | nop => exact h.storeStatus _ _
  | loadClass => exact (h.loadClass _).storeStatus _ _
  | loadFares => exact (h.loadFares _).storeStatus _ _
  | copyActive => exact h.copyActive.storeStatus _ _
  | switchTariff => exact h.switchTariff.storeStatus _ _
  | setRange => exact (h.setRange _).storeStatus _ _
  | flushAll => exact h.runFlushAll
  | enroll | amend | adjust | addProduct | removeProduct | block | unblock | retire | flush =>
    exact h.requestRecord _

theorem blockCommand (h : Keeps s t) (c : ChangeCommand) (i : Nat) (w : Word) (p : BitVec 4) :
    Keeps s (blockCommand c i w p t) := by
  unfold Machine.blockCommand
  split
  · exact h
  · split
    · exact ite (((h.endOp _ _ _).modChange _).runCommand _).settle h
    · exact h

theorem blockRefused (h : Keeps s t) (i : Nat) (w : Word) (p : BitVec 4) : Keeps s (blockRefused i w p t) := by
  unfold Machine.blockRefused
  split
  · exact h
  · split
    · exact h
    · exact (((h.endOp _ _ _).modChange _).storeStatus _ _).settle

theorem followLink (h : Keeps s t) : Keeps s (followLink t) := by
  unfold Machine.followLink
  split
  · exact h.readBlock _
  · exact h.stopUnit _
  · exact h.stopUnit _

theorem rereadDone (h : Keeps s t) (i : Nat) (w : Word) (p : BitVec 4) : Keeps s (rereadDone i w p t) := by
  unfold Machine.rereadDone
  split
  · exact h
  · exact ((h.endOp _ _ _).modChange _).followLink.settle

/-- R183, R184: the count held back stays below the threshold. -/
theorem signalChgDone (h : Keeps s t) : Keeps s (signalChgDone t) := by
  have reset : ∀ {u : State} (_ : Keeps s u) (b : Bool) (w : Word),
      Keeps s (u.setAttn { u.attn with holding := b, count := 0, windowStart := w }) := fun k b w =>
    k.setAttn _ fun ⟨one, eight, window, _⟩ => ⟨one, eight, window, one⟩
  unfold Machine.signalChgDone
  dsimp only
  split
  · split
    · next below => exact h.setAttn _ fun ⟨one, eight, window, _⟩ => ⟨one, eight, window, below⟩
    · exact reset (h.raise _) _ _
  · exact ite (h.raise _) (reset (h.raise _) true _)

theorem nextBlock (h : Keeps s t) : Keeps s (nextBlock t) := by
  unfold Machine.nextBlock
  dsimp only
  split
  · exact h.stopUnit _
  · exact ite (h.stopUnit _) (h.stopUnit _)
  · exact ite (h.stopUnit _) (ite (h.stopUnit _) (h.readBlock _))

theorem completeBlock (h : Keeps s t) : Keeps s (completeBlock t) :=
  (ite (h.modChange _).signalChgDone (h.modChange _)).nextBlock

/-- The requester's own rule at the end of an operation. -/
theorem deliverEnd (h : Keeps s t) (o : Op) (ok : Bool) : Keeps s (deliverEnd o ok t) := by
  unfold Machine.deliverEnd
  split
  · exact ite (h.fetchDone _ _) (h.fetchFailed _)
  · exact ite (h.flushDone _ _) (h.evictionDone _ _)
  · exact ite (h.modChange _) h.haltUnit
  · exact ite h.completeBlock h.haltUnit

theorem endEvent (h : Keeps s t) (test : Request → Bool → Bool) (i : Nat) (e : BusEnd) :
    Keeps s (endEvent test i e t) := by
  unfold Machine.endEvent
  split
  · exact h
  · split
    · exact h
    · exact ite (((h.ackEnd _ _).endOp _ _ _).deliverEnd _ _).settle h

theorem portTimeoutEvent (h : Keeps s t) (i : Nat) : Keeps s (portTimeoutEvent i t) := by
  unfold Machine.portTimeoutEvent
  split
  · exact h
  · exact ite ((h.endOp _ _ _).deliverEnd _ _).settle h

end Keeps
end Sys2Proof.Machine
end

section
/-! Soundness through the gate lines, the urgent commands, the engine's controls, the clock and the register window, and
so through every step; with the settling of O58, O59 and O60. -/

namespace Sys2Proof.Machine
namespace Keeps

variable {s t : State}

/-! ## Gate lines -/

theorem askCache (h : Keeps s t) (c : CtxNo) (x : TapContext) : Keeps s (askCache c x t) := by
  unfold Machine.askCache
  split
  · exact ite (h.resolveAt _ _) (((h.setCtx _ _).modLine _ _).joinWaiting _ _)
  · exact ((h.setCtx _ _).modLine _ _).miss _ _

theorem testMarks (h : Keeps s t) (c : CtxNo) (x : TapContext) : Keeps s (testMarks c x t) :=
  ite (h.deliver _ _) (h.askCache _ _)

theorem arrive (h : Keeps s t) (c : CtxNo) (x : TapContext) : Keeps s (arrive c x t) := by
  unfold Machine.arrive
  split
  · exact h.testMarks _ _
  · dsimp only
    split
    · exact h.deliver _ _
    · exact h.testMarks _ _
    · exact ((h.setLastWatch _).raise _).testMarks _ _

theorem overrun (h : Keeps s t) (n : LineNo) : Keeps s (overrun n t) := ((h.modLine _ _).setLineEvents _).raise _

theorem discardUnread (h : Keeps s t) (n : LineNo) : Keeps s (discardUnread n t) := ite (h.overrun n) h

theorem badTap (h : Keeps s t) (n : LineNo) (q : Byte) : Keeps s (badTap n q t) :=
  ite (h.modLine _ _) ((((h.modLine _ _).discardUnread n).modLine _ _).modLine _ _)

theorem answerBusy (h : Keeps s t) (n : LineNo) (q : Byte) (why : Reason) : Keeps s (answerBusy n q why t) :=
  (h.modLine _ _).modLine _ _

theorem takeTap (h : Keeps s t) (n : LineNo) (q : Byte) (d : Direction) (x : Ident) : Keeps s (takeTap n q d x t) := by
  unfold Machine.takeTap
  refine ite ((h.modLine _ _).answerBusy _ _ _) ?_
  split
  · exact (h.modLine _ _).answerBusy _ _ _
  · exact ((h.modLine _ _).modLine _ _).arrive _ _

theorem goodTap (h : Keeps s t) (n : LineNo) (q : Byte) (d : Direction) (x : Ident) : Keeps s (goodTap n q d x t) :=
  ite (h.modLine _ _) (ite (h.overrun n) ((h.discardUnread n).takeTap _ _ _ _))

theorem judgeTap (h : Keeps s t) (n : LineNo) (q d : Byte) (iss : BitVec 16) (ser : BitVec 40) (chk : Byte) :
    Keeps s (judgeTap n q d iss ser chk t) := by
  unfold Machine.judgeTap
  split
  · exact h.badTap _ _
  · exact (h.goodTap _ _ _ _).settle

theorem fallSelect (h : Keeps s t) (n : LineNo) : Keeps s (fallSelect n t) := by
  unfold Machine.fallSelect
  split
  · exact h.modLine _ _
  all_goals exact h

theorem riseSelect (h : Keeps s t) (n : LineNo) {f : State → State} (hf : ∀ u, Keeps u (f u)) :
    Keeps s (riseSelect n f t) := by
  have quiet : Keeps s (setFrame n .quiet t) := h.modLine _ _
  unfold Machine.riseSelect
  split
  · exact h
  · exact quiet
  all_goals exact ite quiet (quiet.trans (hf _))

theorem countFrameError (h : Keeps s t) (n : LineNo) : Keeps s (countFrameError n t) := h.modLine _ _

theorem cutShort (h : Keeps s t) (n : LineNo) : Keeps s (cutShort n t) := by
  unfold Machine.cutShort
  split
  · exact (h.modLine _ _).modLine _ _
  all_goals exact h.riseSelect n fun u => (refl u).countFrameError n

theorem fixReply (h : Keeps s t) (again : Bool) (n : LineNo) : Keeps s (fixReply again n t) := by
  unfold Machine.fixReply
  dsimp only
  split
  · exact ite (h.modLine _ _) (h.modLine _ _)
  · exact ite (h.modLine _ _) (h.modLine _ _)
  all_goals exact h

theorem finishReply (h : Keeps s t) (again : Bool) (n : LineNo) : Keeps s (finishReply again n t) := by
  unfold Machine.finishReply
  split
  · exact ite ((h.modLine _ _).modLine _ _) h
  all_goals exact h.riseSelect n fun u => (refl u).modLine _ _

theorem withdrawTap (h : Keeps s t) (n : LineNo) : Keeps s (withdrawTap n t) := by
  unfold Machine.withdrawTap
  split
  · exact h
  · exact (h.withdraw _).setCtx _ _

theorem passForDeadline (h : Keeps s t) (n : LineNo) : Keeps s (passForDeadline n t) := by
  unfold Machine.passForDeadline
  split
  · exact ite (h.addPass _) h
  · exact h

theorem deadlineEvent (h : Keeps s t) (n : LineNo) : Keeps s (deadlineEvent n t) := by
  have expired : Keeps s (Machine.withdrawTap n (Machine.passForDeadline n t)) := (h.passForDeadline n).withdrawTap n
  exact ite (ite ((expired.modLine _ _).raise _) (expired.modLine _ _)).settle h

theorem disableLine (h : Keeps s t) (n : LineNo) : Keeps s (disableLine n t) := (h.withdrawTap n).modLine _ _

theorem writeConfig (h : Keeps s t) (n : LineNo) (v : Word) : Keeps s (writeConfig n v t) := by
  unfold Machine.writeConfig
  refine ite ?_ h
  split
  · exact h
  · exact ite (ite ((h.modLine _ _).modLine _ _) (h.modLine _ _)) (ite (h.modLine _ _) ((h.modLine _ _).disableLine n).settle)

/-! ## Urgent commands -/

theorem enterMark (h : Keeps s t) (x : Ident) : Keeps s (enterMark x t) := by
  unfold Machine.enterMark
  split
  · exact h.setMarks _
  · exact h

theorem runBlock (h : Keeps s t) : Keeps s (runBlock t) := by
  unfold Machine.runBlock
  dsimp only
  split
  · exact ((h.amendRecord _ _ id fun m => absurd (show RecState.blocked = .empty from m) (by decide)).touch
      _).finishUrgent _ _
  · exact ite (h.finishUrgent _ _) (ite (h.finishUrgent _ _) ((h.enterMark _).finishUrgent _ _))

theorem runUnmark (h : Keeps s t) : Keeps s (runUnmark t) := ite ((h.removeMark _).finishUrgent _ _) (h.finishUrgent _ _)

theorem runPeek (h : Keeps s t) : Keeps s (runPeek t) := by
  unfold Machine.runPeek
  split
  · exact (h.setPeek _).finishUrgent _ _
  · exact (h.setPeek _).finishUrgent _ _

theorem runFlush (h : Keeps s t) : Keeps s (runFlush t) := by
  unfold Machine.runFlush
  split
  · exact h.finishUrgent _ _
  · exact ite (h.finishUrgent _ _) (h.placeFlush _ _)

theorem runRetry (h : Keeps s t) : Keeps s (runRetry t) := by
  unfold Machine.runRetry
  split
  · exact h.finishUrgent _ _
  · exact ite (h.placeFlush _ _) (h.finishUrgent _ _)

theorem giveUrgent (h : Keeps s t) (code : Word) {run : State → State} (hr : ∀ u, Keeps u (run u)) :
    Keeps s (giveUrgent code run t) :=
  ite h (ite (h.modUrgent _) ((h.modUrgent _).trans (hr _)))

theorem urgentBlockCmd (h : Keeps s t) : Keeps s (urgentBlockCmd t) := h.giveUrgent 1 fun u => (refl u).runBlock.settle
theorem unmarkCmd (h : Keeps s t) : Keeps s (unmarkCmd t) := h.giveUrgent 2 fun u => (refl u).runUnmark
theorem peekCmd (h : Keeps s t) : Keeps s (peekCmd t) := h.giveUrgent 3 fun u => (refl u).runPeek
theorem urgentFlushCmd (h : Keeps s t) : Keeps s (urgentFlushCmd t) := h.giveUrgent 4 fun u => (refl u).runFlush.settle
theorem retryWriteCmd (h : Keeps s t) : Keeps s (retryWriteCmd t) := h.giveUrgent 5 fun u => (refl u).runRetry.settle
theorem unknownUrgentCmd (h : Keeps s t) (code : Word) : Keeps s (unknownUrgentCmd code t) :=
  h.giveUrgent code fun u => (refl u).finishUrgent _ _

/-! ## Clock and attention -/

/-- R175: the clock, with the phase below 1000. -/
theorem setClock (h : Keeps s t) (x : Clock) (sound : x.phase ≤ 999) : Keeps s (t.setClock x) :=
  h.trans ⟨fun ⟨c, b, n, m, _, a⟩ => ⟨c, b, n, m, sound, a⟩, id⟩

theorem passMillisecond (h : Keeps s t) : Keeps s (passMillisecond t) := by
  rw [passMillisecond_eq]
  have clock : Keeps s (t.setClock (millisecondLater t).clock) := h.setClock _ (by
    show (if 999 ≤ t.clock.phase then 0 else t.clock.phase + 1) ≤ 999
    split <;> omega)
  refine clock.trans ⟨fun ⟨c, b, n, m, p, a⟩ => ⟨c, b, n, m, p, ?_⟩, id⟩
  show coalescingBounded (millisecondLater t)
  unfold coalescingBounded millisecondLater raised
  dsimp only
  split
  · split <;> exact a
  · exact a

theorem windowEvent (h : Keeps s t) : Keeps s (windowEvent t) := by
  refine ite (ite (h.setAttn _ id) ?_) h
  exact (h.raise .chgDone).setAttn _ fun ⟨one, eight, window, _⟩ => ⟨one, eight, window, one⟩

theorem dueEvents (h : Keeps s t) : Keeps s (dueEvents t) :=
  ((h.iterate (fun u => (refl u).portTimeoutEvent 0) 4).foldl (fun u n => (refl u).deadlineEvent n) _).windowEvent

theorem readCause (h : Keeps s t) : Keeps s (readCause t) := by
  unfold Machine.readCause
  split
  · exact ⟨h.settings, h.records⟩
  · next x _ =>
    have cleared := h.setAttn { t.attn with pending := t.attn.pending &&& ~~~x.bit } id
    exact ⟨cleared.settings, cleared.records⟩

theorem clearPending (h : Keeps s t) (v : Word) : Keeps s (clearPending v t) := ite (h.setAttn _ id) h

theorem writeLevels (h : Keeps s t) (v : Word) : Keeps s (writeLevels v t) := ite (h.setAttn _ id) h

/-- R184: a write in range leaves a threshold of 1 to 8, a window up to 1023 and no count held. -/
theorem writeCoalesce (h : Keeps s t) (threshold window : Nat) : Keeps s (writeCoalesce threshold window t) := by
  unfold Machine.writeCoalesce
  dsimp only
  split
  · exact h
  · next taken =>
    simp only [Bool.or_eq_true, decide_eq_true_eq, not_or, Nat.not_lt] at taken
    obtain ⟨⟨⟨_, nonzero⟩, eight⟩, small⟩ := taken
    have released : Keeps s (if (t.attn.holding && 0 < t.attn.count) then Machine.raise .chgDone t else t) :=
      ite (h.raise _) h
    exact released.setAttn _ fun _ => ⟨Nat.pos_of_ne_zero nonzero, eight, small, Nat.pos_of_ne_zero nonzero⟩

/-! ## Engine -/

/-- R187: every block's reset values are sound; the memory and the clock stand. -/
theorem resetBlocks (h : Keeps s t) : Keeps s (resetBlocks t) := by
  obtain ⟨engine, attn, slots, _, _, _, _, _, _, _, port, bankA, bankB, _⟩ := resetBlocks_blocksReset t
  have clock : (Machine.resetBlocks t).clock = t.clock := by rw [resetBlocks_eq]
  refine h.trans ⟨fun ⟨_, _, _, memory, phase, _⟩ => ?_, fun _ i => ?_⟩
  · have emptied : memoryCanonical (resetTariff (resetLines (resetTaps (resetPool (resetCache t))))) := by
      simpa only [memoryCanonical, resetTariff, resetLines, resetTaps, resetPool, resetCache, State.setTariff_hostMem,
        State.setRanges_hostMem, State.setLastWatch_hostMem, State.setLines_hostMem, State.setLineEvents_hostMem,
        State.setTaps_hostMem, State.setPool_hostMem, State.setSlots_hostMem, State.setRecency_hostMem,
        State.setSlotWait_hostMem, State.setCounts_hostMem] using memory
    have canonical : memoryCanonical (Machine.resetBlocks t) := by
      simpa only [memoryCanonical, Machine.resetBlocks, State.setEngine_hostMem, State.setAttn_hostMem,
        State.setChange_hostMem, State.setUrgent_hostMem, State.setMarks_hostMem, State.setPeek_hostMem,
        State.setCopies_hostMem] using resetPort_canonical _ emptied
    simp only [settingsSound, tariffInRange, homeBaseAligned, portBounded, phaseBounded, coalescingBounded, engine, attn,
      port, bankA, bankB, clock]
    exact ⟨⟨Bank.reset_inRange, Bank.reset_inRange⟩, rfl, Nat.zero_le _, canonical, phase,
      ⟨by decide, by decide, by decide, by decide⟩⟩
  · rw [slots]
    exact Slot.unused_sound

theorem powerUp (h : Keeps s t) : Keeps s (powerUp t) := (h.resetBlocks.setClock _ (Nat.zero_le _)).setSlave _

theorem initialise (h : Keeps s t) : Keeps s (initialise t) := by
  have slots := h.setSlots (Vector.replicate 256 Slot.unused) fun _ i => by
    rw [get_replicate_eq]
    exact Slot.unused_sound
  have engine := (slots.setTaps (Vector.replicate 12 none)).setEngine { t.engine with state := .stopped } rfl
  rw [initialise_eq]
  exact ⟨engine.settings, engine.records⟩

theorem initialisationEvent (h : Keeps s t) : Keeps s (initialisationEvent t) := ite h.initialise h

theorem controlRelease (h : Keeps s t) : Keeps s (controlRelease t) := ite (h.setEngine _ rfl) h

theorem controlRun (h : Keeps s t) : Keeps s (controlRun t) := by
  unfold Machine.controlRun
  exact ite (h.setEngine { t.engine with state := .running } rfl).settle h

theorem drainStop (h : Keeps s t) : Keeps s (drainStop t) := ite (h.modChange _) h

theorem controlStop (h : Keeps s t) : Keeps s (controlStop t) := by
  unfold Machine.controlStop
  exact ite (h.setEngine { t.engine with state := .draining, phase := .ending } rfl).drainStop.settle h

theorem writeKeyShape (h : Keeps s t) (v : Word) : Keeps s (writeKeyShape v t) := by
  unfold Machine.writeKeyShape
  refine ite ?_ h
  split
  · exact h.setEngine _ rfl
  · exact (h.setEngine { t.engine with keyShape := Config.keyShapeBeyond t.freeIndex v } rfl).setFreeIndex _

/-- R12: Home Base is written with a multiple of 16 MiB, or not at all. -/
theorem writeHomeBase (h : Keeps s t) (v : Word) : Keeps s (writeHomeBase v t) := by
  unfold Machine.writeHomeBase
  split
  · next aligned => exact h.trans ⟨fun ⟨c, _, r⟩ => ⟨c, aligned.2, r⟩, id⟩
  · exact h

theorem clockAdvanceEvent (h : Keeps s t) : Keeps s (clockAdvanceEvent t) := ite h.dueEvents.passMillisecond h

theorem idleTick (h : Keeps s t) : Keeps s (idleTick t) := h.dueEvents.passMillisecond.initialisationEvent

/-! ## The register window -/

theorem writeEngineCtrl (h : Keeps s t) (v : Word) : Keeps s (writeEngineCtrl v t) :=
  ite h.resetBlocks (ite h.controlRelease (ite h.controlRun (ite h.controlStop h)))

theorem writeChangeCtrl (h : Keeps s t) (v : Word) : Keeps s (writeChangeCtrl v t) :=
  ite h.controlStart (ite h.controlResume (ite h.controlSuspend (ite h.controlAbort h.controlUnknown)))

theorem writeUrgentCmd (h : Keeps s t) (v : Word) : Keeps s (writeUrgentCmd v t) :=
  ite h.urgentBlockCmd (ite h.unmarkCmd (ite h.peekCmd (ite h.urgentFlushCmd (ite h.retryWriteCmd
    (h.unknownUrgentCmd v)))))

theorem whenOpen (h : Keeps s t) {f : State → State} (hf : ∀ u, Keeps u (f u)) : Keeps s (whenOpen f t) :=
  ite (h.trans (hf t)) h

theorem writeViewSel (h : Keeps s t) (v : Word) : Keeps s (writeViewSel v t) := by
  unfold Machine.writeViewSel
  split
  · exact h.setTariff _ id
  · exact h

theorem writeLowReg (h : Keeps s t) (off : Nat) (v : Word) : Keeps s (writeLowReg off v t) := by
  unfold Machine.writeLowReg
  split
  · exact h.writeEngineCtrl v
  · exact h.writeKeyShape v
  · exact h.writeHomeBase v
  · exact h.setClock _ (Nat.zero_le _)
  · exact h.clearPending v
  · exact h.writeLevels v
  · exact h.writeCoalesce _ _
  · exact h.whenOpen fun u => (refl u).modChange _
  · exact h.writeChangeCtrl v
  · exact h.whenOpen fun u => (refl u).modUrgent _
  · exact h.whenOpen fun u => (refl u).modUrgent _
  · exact h.writeUrgentCmd v
  · exact h.whenOpen fun u => (refl u).modCounts _
  · exact h.whenOpen fun u => (refl u).modCounts _
  · exact h.whenOpen fun u => (refl u).modCounts _
  · exact h.whenOpen fun u => (refl u).modCounts _
  · exact h.whenOpen fun u => (refl u).modPort _ (Nat.le_refl _)
  · exact h.whenOpen fun u => (refl u).modPort _ (Nat.le_refl _)
  · exact h.whenOpen fun u => (refl u).modPort _ (Nat.le_refl _)
  · exact h.whenOpen fun u => (refl u).modPort _ (Nat.le_refl _)
  · exact h.whenOpen fun u => (refl u).writeViewSel v
  · exact h.whenOpen fun u => (refl u).setLastWatch _
  · exact h.whenOpen fun u => (refl u).setLastWatch _
  · exact h.whenOpen fun u => (refl u).setLastWatch _
  · exact ite (h.setLineEvents _) h
  · exact h

theorem regWrite (h : Keeps s t) (off : Nat) (v : Word) : Keeps s (regWrite off v t) := by
  unfold Machine.regWrite
  refine ite (h.writeLowReg off v) (ite ?_ h)
  unfold writeLineReg
  split
  · exact h.writeConfig _ v
  · exact h.whenOpen fun u => (refl u).modLine _ _

theorem readLowest (h : Keeps s t) (r : MultiReg) : Keeps s (readLowest r t) := (h.setSlave _).setCopies _

/-! ## Every command -/

/-- The state after a command that never stops. -/
theorem of_done {u : State} (h : done u = .next t) (k : Keeps s u) : Keeps s t := by
  obtain rfl := Host.Outcome.next.inj h
  exact k

/-- Every command that answers a next state keeps soundness. -/
theorem exec {c : Instr} (h : Machine.exec c s = .next t) : Keeps s t := by
  have r := refl s
  cases c with
  | powerOn => exact of_done h r.powerUp
  | hold => exact of_done h r.resetBlocks
  | release => exact of_done h r.controlRelease
  | initialisationComplete => exact of_done h r.initialisationEvent
  | run => exact of_done h r.controlRun
  | stop => exact of_done h r.controlStop
  | evictAll => exact of_done h (ite r.evictAllSlots.settle r)
  | drainComplete => exact of_done h (ite r.finishDrain.settle r)
  | keyShapeWrite v => exact of_done h (r.writeKeyShape v)
  | homeBaseWrite v => exact of_done h (r.writeHomeBase v)
  | stationClockWrite v => exact of_done h (r.setClock _ (Nat.zero_le _))
  | attnCauseRead => exact of_done h r.readCause
  | attnPendingWrite v => exact of_done h (r.clearPending v)
  | attnLevelWrite v => exact of_done h (r.writeLevels v)
  | attnCoalesceWrite threshold window => exact of_done h (r.writeCoalesce threshold window)
  | lineEventsWrite v => exact of_done h (ite (r.setLineEvents _) r)
  | lineEnable n v => exact of_done h (r.writeConfig n _)
  | lineDisable n v => exact of_done h (r.writeConfig n _)
  | multiwordLowestRead reg => exact of_done h (r.readLowest reg)
  | registerWrite off v =>
    simp only [Machine.exec, execRegisterWrite] at h
    split at h
    · exact of_done h (r.regWrite off v)
    · exact absurd h nofun
  | start => exact of_done h r.controlStart
  | resume => exact of_done h r.controlResume
  | suspend => exact of_done h r.controlSuspend
  | abort => exact of_done h r.controlAbort
  | changeCtrlRefused code => exact of_done h (ite (r.modChange _) r)
  | urgentBlock => exact of_done h r.urgentBlockCmd
  | unmark => exact of_done h r.unmarkCmd
  | peek => exact of_done h r.peekCmd
  | urgentFlush => exact of_done h r.urgentFlushCmd
  | retryWrite => exact of_done h r.retryWriteCmd
  | urgentUnknownCode code => exact of_done h (ite r (r.unknownUrgentCmd code))
  | urgentCommandLost code => exact of_done h (ite (r.modUrgent _) r)
  | tap n q d iss ser chk => exact of_done h (r.riseSelect n fun u => (refl u).judgeTap n q d iss ser chk)
  | pollReplyFixed n => exact of_done h (r.fixReply _ n)
  | poll n => exact of_done h (r.finishReply _ n)
  | repeatReplyFixed n => exact of_done h (r.fixReply _ n)
  | repeatFrame n => exact of_done h (r.finishReply _ n)
  | frameCutShort n => exact of_done h (r.cutShort n)
  | unknownOpcode n o => exact of_done h (ite r (r.riseSelect n fun u => (refl u).countFrameError n))
  | deadlineExpiry n => exact of_done h (r.deadlineEvent n)
  | fetchComplete | fetchFail | evictionWriteComplete | flushWriteComplete | blockReadFail | abandonedReadEnd
  | statusWriteComplete | statusWriteFail => exact of_done h (r.endEvent _ _ _)
  | cleanerWrite => exact of_done h (ite r.cleanerOne.settle r)
  | reclaim => exact of_done h (ite r.reclaimOne.settle r)
  | portBegin => exact of_done h r.beginOne
  | portTimeout i => exact of_done h (r.portTimeoutEvent i)
  | lateResponse k b => exact of_done h (r.lateResponse k b)
  | nop | enroll | amend | adjust | addProduct | removeProduct | block | unblock | retire | flush | flushAll
  | loadClass | loadFares | copyActive | switchTariff | setRange => exact of_done h (r.blockCommand _ _ _ _)
  | blockCheckFailed i w p => exact of_done h (r.blockRefused i w p)
  | resumeRereadDone i w p => exact of_done h (r.rereadDone i w p)
  | coalesceWindowExpiry => exact of_done h r.windowEvent
  | clockAdvance => exact of_done h r.clockAdvanceEvent
  | beatResponse i b => exact of_done h (r.beatResponse i b)
  | frameStart n => exact of_done h (r.fallSelect n)
  | frameWithoutOpcode n => exact of_done h (r.riseSelect n refl)

/-- Every step keeps soundness: it is a command on the state with the queue's rest, or the idle tick. -/
theorem step (h : Machine.step s = .next t) : Keeps s t := by
  unfold Machine.step at h
  split at h
  · exact of_done h (refl s).idleTick
  · next c rest _ =>
    have queue : Keeps s (s.withPending rest) := ⟨id, id⟩
    exact queue.trans (exec h)

end Keeps

/-! ## The obligations -/

/-- Settles O58. -/
theorem everyStepKeepsSettingsSound : Obligations.EveryStepKeepsSettingsSound := fun _ _ sound next =>
  (Keeps.step next).settings sound

/-- Settles O59. -/
theorem everyStepKeepsRecordsSound : Obligations.EveryStepKeepsRecordsSound := fun _ _ sound next =>
  (Keeps.step next).records sound

/-- Settles O60: both reset banks are in range, the memory lists nothing, and every slot is FREE. -/
theorem resetIsSound : Obligations.ResetIsSound := by
  refine ⟨⟨⟨Bank.reset_inRange, Bank.reset_inRange⟩, rfl, Nat.zero_le _, reset_canonical, Nat.zero_le _,
    ⟨by decide, by decide, by decide, by decide⟩⟩, fun i => ?_⟩
  have slot : State.reset.slot i = Slot.unused := get_replicate_eq _ i
  rw [slot]
  exact Slot.unused_sound

end Sys2Proof.Machine
end

section
/-! Attention and register writes (chapters 10 and 12): which commands stop the device, what a read of ATTN_CAUSE takes,
and what each register write does, with the settling of O2, O11, O16 and O17. -/

namespace Sys2Proof.Machine

/-! ## Outcomes -/

/-- Every command but a register write answers a next state. -/
theorem exec_next (c : Instr) (s : State) (other : ∀ off v, c ≠ .registerWrite off v) : ∃ t, exec c s = .next t := by
  cases c with
  | registerWrite off v => exact absurd rfl (other off v)
  | _ => exact ⟨_, rfl⟩

/-- R196: a write inside the window is the register's. -/
theorem exec_registerWrite {off : Nat} (v : Word) (s : State) (inside : inWindow off = true) :
    exec (.registerWrite off v) s = .next (regWrite off v s) := if_pos inside

/-- Log entry 16: a write outside the window stops. -/
theorem exec_registerWrite_outside {off : Nat} (v : Word) (s : State) (outside : inWindow off = false) :
    exec (.registerWrite off v) s = .fault (.noSuchRegister off) := if_neg (by simp [outside])

theorem inWindow_iff (off : Nat) : inWindow off = true ↔ off < 0x660 ∧ off % 4 = 0 := by
  simp [inWindow]

theorem inWindow_eq_false_iff (off : Nat) : inWindow off = false ↔ 0x660 ≤ off ∨ off % 4 ≠ 0 := by
  rw [← Bool.not_eq_true, inWindow_iff]
  omega

/-! ## The cause of an interrupt (R181) -/

/-- No source outranks the best of a list when none is pending with a level, or none reaches the best's level. -/
theorem foldl_outranks_same (a : Attention) (best : Option Source) (l : List Source)
    (h : ∀ y ∈ l, a.outranks best y = false) :
    l.foldl (fun b y => if a.outranks b y then some y else b) best = best := by
  induction l with
  | nil => rfl
  | cons y l ih =>
    rw [List.foldl_cons, h y List.mem_cons_self]
    exact ih fun z hz => h z (List.mem_cons_of_mem _ hz)

/-- The best of a list whose sources all stand below a level stands below it. -/
theorem foldl_outranks_below (a : Attention) (n : Nat) (best : Option Source) (l : List Source)
    (start : ∀ b, best = some b → a.level b < n) (h : ∀ y ∈ l, a.isPending y = true → a.level y < n) :
    ∀ b, l.foldl (fun b y => if a.outranks b y then some y else b) best = some b → a.level b < n := by
  induction l generalizing best with
  | nil => exact start
  | cons y l ih =>
    refine ih _ (fun b hb => ?_) fun z hz => h z (List.mem_cons_of_mem _ hz)
    dsimp only at hb
    split at hb
    · next higher =>
      obtain rfl := Option.some.inj hb
      simp only [Attention.outranks, Bool.and_eq_true] at higher
      exact h y List.mem_cons_self higher.1.1
    · exact start b hb

/-- The sources in code order, cut at one of them. -/
theorem allSources_split (x : Source) :
    allSources = allSources.take (x.code - 1) ++ x :: allSources.drop x.code ∧
      ∀ y ∈ allSources.take (x.code - 1), y.code < x.code := by
  cases x <;> exact ⟨rfl, by decide⟩

/-- R181: without a pending source of level 1 or more there is no cause. -/
theorem Attention.cause_none {a : Attention} (h : ∀ x, a.isPending x = true → a.level x = 0) : a.cause = none := by
  refine foldl_outranks_same a none allSources fun y _ => ?_
  cases pending : a.isPending y with
  | false => simp [Attention.outranks, pending]
  | true => simp [Attention.outranks, h y pending]

/-- R181: the cause is the pending source of the highest level, of the lowest code among equals. -/
theorem Attention.cause_some {a : Attention} {x : Source} (pending : a.isPending x = true) (level : 1 ≤ a.level x)
    (highest : ∀ y, a.isPending y = true →
      a.level y < a.level x ∨ (a.level y = a.level x ∧ x.code ≤ y.code)) : a.cause = some x := by
  obtain ⟨split, before⟩ := allSources_split x
  have below : ∀ b, (allSources.take (x.code - 1)).foldl (fun b y => if a.outranks b y then some y else b) none =
      some b → a.level b < a.level x :=
    foldl_outranks_below a _ none _ nofun fun y hy p => by
      have := before y hy
      have := highest y p
      omega
  rw [Attention.cause, split, List.foldl_append, List.foldl_cons]
  generalize (allSources.take (x.code - 1)).foldl (fun b y => if a.outranks b y then some y else b) none = best at below
  have taken : a.outranks best x = true := by
    cases best with
    | none => simp [Attention.outranks, pending, level]
    | some b => simp [Attention.outranks, pending, level, below b rfl]
  rw [if_pos taken]
  refine foldl_outranks_same a _ _ fun y _ => ?_
  cases p : a.isPending y with
  | false => simp [Attention.outranks, p]
  | true =>
    have := highest y p
    simp only [Attention.outranks, p, Bool.and_eq_false_iff, decide_eq_false_iff_not]
    omega

/-- A source's bit as a shifted one. -/
theorem Source.bit_eq (x : Source) : x.bit = 1#12 <<< (x.code - 1) := by
  cases x <;> decide

theorem readCause_none {s : State} (h : s.attn.cause = none) : readCause s = { s with slave := 0 } := by
  rw [readCause, h]
  rfl

theorem readCause_some {s : State} {x : Source} (h : s.attn.cause = some x) :
    readCause s =
      { s with
        slave := BitVec.ofNat 32 x.code,
        attn := { s.attn with pending := s.attn.pending &&& ~~~(1#12 <<< (x.code - 1)) } } := by
  rw [readCause, h, ← Source.bit_eq]
  rfl

/-! ## Register writes -/

theorem whenOpen_of_isOpen {s : State} (f : State → State) (h : s.isOpen = true) : whenOpen f s = f s := if_pos h

theorem whenOpen_of_closed {s : State} (f : State → State) (h : s.isOpen = false) : whenOpen f s = s := by
  simp [whenOpen, h]

/-- A write to a register of the first 256 bytes. -/
theorem exec_registerWrite_low {off : Nat} (v : Word) (s : State) (low : off < 0x100) (aligned : off % 4 = 0) :
    exec (.registerWrite off v) s = .next (writeLowReg off v s) := by
  rw [exec_registerWrite v s ((inWindow_iff off).mpr ⟨by omega, aligned⟩), regWrite, if_pos low]

/-- A write to word `j` of a line's registers. -/
theorem exec_registerWrite_line (n : LineNo) (j : Fin 8) (v : Word) (s : State) {off : Nat}
    (place : off = 0x400 + 32 * n.val + 4 * j.val) :
    exec (.registerWrite off v) s = .next (writeLineReg n j.val v s) := by
  have := n.isLt
  have := j.isLt
  rw [exec_registerWrite v s ((inWindow_iff _).mpr ⟨by omega, by omega⟩), regWrite, if_neg (by omega),
    if_pos (by omega), ofNat_eq_index n (by omega)]
  congr 2
  omega

/-- R93: a write to a counter of a line, in STOPPED, RUNNING and DRAINING. -/
theorem exec_registerWrite_counter (n : LineNo) (j : Fin 8) (v : Word) {s : State} (opened : s.isOpen = true)
    (counter : j.val ≠ 0) {off : Nat} (place : off = 0x400 + 32 * n.val + 4 * j.val) :
    exec (.registerWrite off v) s = .next (clearLineCounter n j.val s) := by
  rw [exec_registerWrite_line n j v s place, writeLineReg, whenOpen_of_isOpen _ opened]
  exact fun zero => counter zero

/-- A write that reaches neither the first 256 bytes nor a line's registers is ignored. -/
theorem regWrite_elsewhere {off : Nat} (v : Word) (s : State) (h : 0x100 ≤ off) (h' : off < 0x400 ∨ 0x600 ≤ off) :
    regWrite off v s = s := by
  rw [regWrite, if_neg (by omega), if_neg (by omega)]


/-- R93, R196: the words of a line that no write reaches. -/
theorem writeLineReg_readOnly (n : LineNo) {j : Nat} (v : Word) (s : State) (h : j = 1 ∨ j = 7) :
    writeLineReg n j v s = s := by
  have same : s.modLine n (fun l => l) = s := by
    show { s with lines := _ } = s
    rw [State.line, set_get_eq]
  rcases h with rfl | rfl
  all_goals
    show whenOpen _ s = s
    exact (ite_eq_right_iff.mpr fun _ => same)

/-! ## Ignored writes in HELD and INITIALIZING (R196) -/

theorem State.isOpen_of_stopped {s : State} (h : s.engine.state = .stopped) : s.isOpen = true := by
  simp [State.isOpen, h]

theorem writeChangeCtrl_of_closed (v : Word) {s : State} (h : s.isOpen = false) : writeChangeCtrl v s = s := by
  simp [writeChangeCtrl, controlStart, controlResume, controlSuspend, controlAbort, controlUnknown, h]

theorem giveUrgent_of_closed (code : Word) (run : State → State) {s : State} (h : s.isOpen = false) :
    giveUrgent code run s = s := by
  simp [giveUrgent, h]

theorem writeUrgentCmd_of_closed (v : Word) {s : State} (h : s.isOpen = false) : writeUrgentCmd v s = s := by
  simp only [writeUrgentCmd, urgentBlockCmd, unmarkCmd, peekCmd, urgentFlushCmd, retryWriteCmd, unknownUrgentCmd,
    giveUrgent_of_closed _ _ h, ite_self]

theorem writeConfig_of_closed (n : LineNo) (v : Word) {s : State} (h : s.isOpen = false) : writeConfig n v s = s :=
  if_neg (by simp [h])

theorem writeLineReg_of_closed (n : LineNo) (j : Nat) (v : Word) {s : State} (h : s.isOpen = false) :
    writeLineReg n j v s = s := by
  unfold writeLineReg
  split
  · exact writeConfig_of_closed n v h
  · exact whenOpen_of_closed _ h

theorem writeLowReg_of_closed {off : Nat} (v : Word) {s : State} (h : s.isOpen = false) (control : off ≠ 0)
    (clock : off ≠ 0x010) : writeLowReg off v s = s := by
  have notStopped : s.engine.state ≠ .stopped := fun stopped => by simp [State.isOpen_of_stopped stopped] at h
  unfold writeLowReg
  split
  case h_1 => exact absurd rfl control
  case h_2 => exact writeKeyShape_refused v (.inl notStopped)
  case h_3 => exact writeHomeBase_refused v (.inl notStopped)
  case h_4 => exact absurd rfl clock
  case h_9 => exact writeChangeCtrl_of_closed v h
  case h_12 => exact writeUrgentCmd_of_closed v h
  all_goals simp [whenOpen, clearPending, writeLevels, writeCoalesce, clearLineEvents, h]

theorem regWrite_of_closed {off : Nat} (v : Word) {s : State} (h : s.isOpen = false) (control : off ≠ 0)
    (clock : off ≠ 0x010) : regWrite off v s = s := by
  unfold regWrite
  split
  · exact writeLowReg_of_closed v h control clock
  · split
    · exact writeLineReg_of_closed _ _ v h
    · rfl

/-! ## The command that a LINE_CONFIG word gives (log entry 22) -/

theorem or_one_of_bit {v : Word} (h : v[0] = true) : v ||| 1#32 = v := by
  ext i hi
  rcases Nat.eq_zero_or_pos i with rfl | pos
  · simp [h]
  · simp [Nat.ne_of_gt pos]

theorem and_not_one_of_bit {v : Word} (h : v[0] = false) : v &&& ~~~1#32 = v := by
  ext i hi
  rw [BitVec.getElem_and, BitVec.getElem_not, BitVec.getElem_one]
  rcases Nat.eq_zero_or_pos i with rfl | pos
  · simp [h]
  · simp [Nat.ne_of_gt pos]

/-! ## The obligations -/

/-- Settles O2: only the meaning of a register write tests its operands. -/
theorem onlyAnAccessOutsideTheWindowStops : Obligations.OnlyAnAccessOutsideTheWindowStops := by
  refine ⟨fun c s => ?_, fun off v s => ⟨fun outside => ?_, fun low aligned => ?_⟩⟩
  · by_cases write : ∃ off v, c = .registerWrite off v
    · obtain ⟨off, v, rfl⟩ := write
      cases inside : inWindow off with
      | true => exact .inl ⟨_, exec_registerWrite v s inside⟩
      | false =>
        exact .inr ⟨off, v, rfl, (inWindow_eq_false_iff off).mp inside, exec_registerWrite_outside v s inside⟩
    · exact .inl (exec_next c s fun off v h => write ⟨off, v, h⟩)
  · exact exec_registerWrite_outside v s ((inWindow_eq_false_iff off).mpr outside)
  · exact ⟨_, exec_registerWrite v s ((inWindow_iff off).mpr ⟨low, aligned⟩)⟩

/-- Settles O11: a read takes the cause, the best of the sources tried in code order. -/
theorem causeReadTakesTheHighestSource : Obligations.CauseReadTakesTheHighestSource := fun _ =>
  ⟨fun idle => congrArg Host.Outcome.next (readCause_none (Attention.cause_none idle)),
    fun _ pending level highest =>
      congrArg Host.Outcome.next (readCause_some (Attention.cause_some pending level highest))⟩

/-- Settles O16: one register at a time. -/
theorem registerWritesWhenOpen : Obligations.RegisterWritesWhenOpen := by
  refine ⟨fun s v off => ⟨fun readOnly => ?_, fun inside readOnly => ?_⟩, fun s v opened => ?_⟩
  · simp only [List.mem_cons, List.not_mem_nil, or_false] at readOnly
    rcases readOnly with rfl | rfl | rfl | rfl | rfl | rfl | rfl | rfl | rfl | rfl | rfl | rfl | rfl | rfl | rfl | rfl |
      rfl | rfl | rfl | rfl | rfl | rfl | rfl | rfl | rfl
    all_goals exact exec_registerWrite_low v s (by decide) (by decide)
  · rw [exec_registerWrite v s inside]
    congr 1
    by_cases low : off < 0x100
    · obtain ⟨k, rfl⟩ : ∃ k, off = 0x0C8 + k := ⟨off - 0x0C8, by omega⟩
      rw [regWrite, if_pos low]
      unfold writeLowReg
      split
      case h_26 => rfl
      all_goals omega
    · by_cases line : 0x400 ≤ off ∧ off < 0x600
      · rw [regWrite, if_neg low, if_pos line]
        exact writeLineReg_readOnly _ v s (by omega)
      · exact regWrite_elsewhere v s (by omega) (by omega)
  · have acts {a b : State} : (.next (if s.isOpen = true then a else b) : Host.Outcome State Fault Refusal) = .next a :=
      congrArg Host.Outcome.next (if_pos opened)
    have view : exec (.registerWrite 0x098 v) s = .next (writeViewSel v s) := acts
    refine ⟨acts, acts, acts, acts, acts, rfl, acts, acts, acts, rfl, rfl, acts, acts, acts,
      fun k number => view.trans ?_, fun above => view.trans ?_, fun n => ?_⟩
    · rw [writeViewSel, dif_pos (number ▸ k.isLt)]
      simp only [number]
      rfl
    · rw [writeViewSel, dif_neg (by omega)]
    · have counter (j : Fin 8) (h : j.val ≠ 0) {off : Nat} (place : off = 0x400 + 32 * n.val + 4 * j.val) :=
        exec_registerWrite_counter n j v opened h place
      exact ⟨counter 2 (by decide) (by omega), counter 3 (by decide) (by omega), counter 4 (by decide) (by omega),
        counter 5 (by decide) (by omega), counter 6 (by decide) (by omega)⟩

/-- Settles O17: each write reaches the function that is the command's meaning. -/
theorem registerWritesGiveCommands : Obligations.RegisterWritesGiveCommands := by
  refine ⟨fun s v n => ?_, fun s off v closed inside control clock => ?_⟩
  · refine ⟨rfl, rfl, rfl, rfl, fun unknown => ?_, rfl, rfl, rfl, rfl, rfl, rfl, rfl, rfl, rfl, rfl, rfl, rfl, rfl, rfl,
      rfl, ?_⟩
    · rw [exec_registerWrite_low v s (by decide) (by decide)]
      show Host.Outcome.next (writeEngineCtrl v s) = _
      have not_code (k : Nat) (small : k < 5) (pos : 0 < k) : v ≠ BitVec.ofNat 32 k := by
        rintro rfl
        have value : (BitVec.ofNat 32 k).toNat = k := Nat.mod_eq_of_lt (by omega)
        rcases unknown with zero | above
        · rw [zero] at value
          exact absurd value (by simpa using Nat.ne_of_lt pos)
        · omega
      have one : v ≠ 1 := not_code 1 (by decide) (by decide)
      have two : v ≠ 2 := not_code 2 (by decide) (by decide)
      have three : v ≠ 3 := not_code 3 (by decide) (by decide)
      have four : v ≠ 4 := not_code 4 (by decide) (by decide)
      rw [writeEngineCtrl, if_neg one, if_neg two, if_neg three, if_neg four]
    · rw [exec_registerWrite_line n 0 v s (Nat.add_zero _).symm]
      show Host.Outcome.next (writeConfig n v s) =
        if v[0] = true then .next (writeConfig n (v ||| 1#32) s) else .next (writeConfig n (v &&& ~~~1#32) s)
      cases enabled : v[0] with
      | true => rw [or_one_of_bit enabled, if_pos rfl]
      | false => rw [and_not_one_of_bit enabled, if_neg (by decide)]
  · rw [exec_registerWrite v s inside, regWrite_of_closed v closed control clock]

end Sys2Proof.Machine
end

section
/-! The Change Unit (chapter 8): its controls, the taking of a block, and the ends of its own memory operations, with the
settling of O39, O40, O51, O52 and O14. -/

namespace Sys2Proof.Machine

/-- What no operation of the device's own work reaches is what `keepsHost` names. -/
theorem keepsHost_of_blind {s t : State} (h : ∀ {α : Type} {π : State → α}, Blind π → π t = π s) : keepsHost s t :=
  ⟨h clock_blind, h tariff_blind, h ranges_blind, h lastWatch_blind, h lineEvents_blind, h peek_blind, h copies_blind,
    h slave_blind, h hostMem_blind, h freeIndex_blind, h pending_blind, h keyShape_blind, h homeBase_blind⟩

/-! ## The unit's own operations as one state each -/

theorem readBlock_eq (a : Word) (s : State) :
    readBlock a s =
      { s with
        change := { s.change with state := .reading, blockAddr := a },
        port := { s.port with list := s.port.list ++ [.blockRead a false] } } := rfl

theorem stopUnit_eq (x : ChangeState) (s : State) :
    stopUnit x s =
      { s with change := { s.change with state := x, stop := .none }, attn := raised .chgStopped s } := by
  rw [stopUnit, raise_eq_raised]
  rfl

/-! ## Controls -/

theorem controlStart_of_running {s : State} (running : s.running = true)
    (h : s.change.state = .idle ∨ s.change.state = .halted) :
    controlStart s =
      settle
        (readBlock (blockAligned s.change.listAddr)
          (takeControl (s.modChange fun u => { u with stop := .none, rereading := false }))) := by
  rcases h with h | h <;> simp [controlStart, isOpen_of_running s running, running, h]

theorem controlResume_of_suspended {s : State} (running : s.running = true) (h : s.change.state = .suspended) :
    controlResume s = settle (readBlock s.change.heldLink (takeControl s)) := by
  simp [controlResume, isOpen_of_running s running, running, h]

theorem controlResume_of_idle {s : State} (running : s.running = true) (h : s.change.state = .idle)
    (valid : s.change.lastValid = true) :
    controlResume s =
      settle (readBlock s.change.last (takeControl (s.modChange fun u => { u with rereading := true }))) := by
  simp [controlResume, isOpen_of_running s running, running, h, valid]

/-- R141: START is refused but in IDLE and HALTED with the engine RUNNING. -/
theorem controlStart_refused {s : State} (opened : s.isOpen = true)
    (h : s.running = false ∨ (s.change.state ≠ .idle ∧ s.change.state ≠ .halted)) : controlStart s = refuseControl s := by
  rcases h with h | ⟨h, h'⟩
  · simp [controlStart, opened, h]
  · simp [controlStart, opened, h, h']

/-- R141: RESUME is refused but in SUSPENDED, or in IDLE with a last completed block, with the engine RUNNING. -/
theorem controlResume_refused {s : State} (opened : s.isOpen = true)
    (h : s.running = false ∨ (s.change.state ≠ .suspended ∧ (s.change.state ≠ .idle ∨ s.change.lastValid = false))) :
    controlResume s = refuseControl s := by
  rcases h with h | ⟨h, h' | h'⟩
  · simp [controlResume, opened, h]
  · simp [controlResume, opened, h, h']
  · simp [controlResume, opened, h, h']

theorem controlSuspend_taken {s : State} (opened : s.isOpen = true) (busy : s.change.busy = true)
    (h : s.change.stop ≠ .abort) : controlSuspend s = takeControl (s.modChange fun u => { u with stop := .suspend }) := by
  simp [controlSuspend, opened, busy, h]

theorem controlSuspend_refused {s : State} (opened : s.isOpen = true)
    (h : s.change.busy = false ∨ s.change.stop = .abort) : controlSuspend s = refuseControl s := by
  rcases h with h | h <;> simp [controlSuspend, opened, h]

theorem ChangeUnit.busy_iff (u : ChangeUnit) :
    u.busy = true ↔ u.state = .reading ∨ u.state = .waiting ∨ u.state = .storing := by
  simp [ChangeUnit.busy, or_assoc]

/-- R141: ABORT is refused while the unit has no block in progress, and in a read that is abandoned. -/
theorem controlAbort_refused {s : State} (opened : s.isOpen = true)
    (h : s.change.busy = false ∨ (s.change.state = .reading ∧ s.change.abandoned = true)) :
    controlAbort s = refuseControl s := by
  rcases h with h | ⟨h, h'⟩
  · unfold controlAbort ChangeUnit.busy at *
    cases state : s.change.state <;> simp_all
  · simp [controlAbort, opened, h, h']

theorem controlAbort_reading {s : State} (opened : s.isOpen = true) (h : s.change.state = .reading)
    (current : s.change.abandoned = false) : controlAbort s = settle (abandonRead (takeControl s)) := by
  simp [controlAbort, opened, h, current]

theorem controlAbort_waiting {s : State} (opened : s.isOpen = true) (h : s.change.state = .waiting) :
    controlAbort s = settle (abortWaiting (takeControl s)) := by
  simp [controlAbort, opened, h]

theorem controlAbort_storing {s : State} (opened : s.isOpen = true) (h : s.change.state = .storing) :
    controlAbort s = takeControl (s.modChange fun u => { u with stop := .abort }) := by
  simp [controlAbort, opened, h]

/-- R145: ABORT in READING, as one state. -/
theorem abandonRead_eq (s : State) :
    abandonRead s =
      { s with
        change := { s.change with state := .idle, stop := .none, abandoned := true, rereading := false },
        port :=
          { s.port with
            list := s.port.list.map Request.abandon,
            inFlight := s.port.inFlight.map fun o => { o with request := o.request.abandon } },
        attn := raised .chgStopped s } := by
  rw [abandonRead, stopUnit_eq]
  rfl

/-- R146: ABORT in WAITING, as one state. -/
theorem abortWaiting_eq (s : State) :
    abortWaiting s =
      { s with
        change := { s.change with state := .storing, stop := .abort },
        port := { s.port with list := s.port.list ++ [.statusWrite s.change.blockAddr 0 (statusHalf .aborted)] },
        slots := s.slots.map fun x => { x with waiting := x.waiting.filter (· != .change) },
        slotWait := s.slotWait.filter (· != .change) } := rfl

/-- R141: a code that names no control is refused. -/
theorem writeChangeCtrl_unknown {s : State} {v : Word} (opened : s.isOpen = true) (h : 4 < v.toNat ∨ v = 0) :
    writeChangeCtrl v s = refuseControl s := by
  have one : v ≠ 1 := by rintro rfl; exact absurd h (by decide)
  have two : v ≠ 2 := by rintro rfl; exact absurd h (by decide)
  have three : v ≠ 3 := by rintro rfl; exact absurd h (by decide)
  have four : v ≠ 4 := by rintro rfl; exact absurd h (by decide)
  rw [writeChangeCtrl, if_neg one, if_neg two, if_neg three, if_neg four, controlUnknown, if_pos opened]

theorem controlTaken_unknown {s : State} {v : Word} (h : 4 < v.toNat ∨ v = 0) : controlTaken v s = false := by
  have one : v ≠ 1 := by rintro rfl; exact absurd h (by decide)
  have two : v ≠ 2 := by rintro rfl; exact absurd h (by decide)
  have three : v ≠ 3 := by rintro rfl; exact absurd h (by decide)
  have four : v ≠ 4 := by rintro rfl; exact absurd h (by decide)
  simp only [controlTaken, one, two, three, four, if_false]

/-! ## Completions (R160, R183) -/

/-- R183: a signal writes the Attention Controller alone. -/
theorem signalChgDone_eq (s : State) : signalChgDone s = { s with attn := (signalChgDone s).attn } := by
  unfold signalChgDone
  dsimp only
  split
  · split
    · rfl
    · rw [raise_eq_raised]; rfl
  · split
    · rw [raise_eq_raised]
    · rw [raise_eq_raised]; rfl

/-- R160, R183: the Attention Controller after the signal of a completion. -/
def completionSignalled (s : State) : Attention :=
  if s.change.block.flagI = true then (signalChgDone s).attn else s.attn

/-- R183: the signal is made from the Attention Controller, the engine and the clock. -/
theorem signalChgDone_attn_congr {s t : State} (attn : t.attn = s.attn) (engine : t.engine = s.engine)
    (clock : t.clock = s.clock) : (signalChgDone t).attn = (signalChgDone s).attn := by
  have same : raised .chgDone t = raised .chgDone s := by
    have opened : t.isOpen = s.isOpen := by simp only [State.isOpen, engine]
    simp only [raised, opened, attn]
  unfold signalChgDone
  simp only [raise_eq_raised, attn, clock, same]
  split
  · split <;> rfl
  · split <;> rfl

/-- R160, R183: the signal is made from the block, the Attention Controller, the engine and the clock. -/
theorem completionSignalled_congr {s t : State} (change : t.change = s.change) (attn : t.attn = s.attn)
    (engine : t.engine = s.engine) (clock : t.clock = s.clock) : completionSignalled t = completionSignalled s := by
  simp only [completionSignalled, change, attn, signalChgDone_attn_congr attn engine clock]

/-- R160: neither port nor memory reaches the signal. -/
theorem completionSignalled_of_port (s : State) (p : Port) (m : Memory) :
    completionSignalled { s with port := p, hostMem := m } = completionSignalled s :=
  completionSignalled_congr rfl rfl rfl rfl

/-- R160: the last completed block and the signal of its completion; what the unit does next is `nextBlock`. -/
theorem completeBlock_eq (s : State) :
    completeBlock s =
      nextBlock
        { s with
          change := { s.change with last := s.change.blockAddr, lastValid := true },
          attn := completionSignalled s } := by
  have same (f : ChangeUnit → ChangeUnit) : (signalChgDone (s.modChange f)).attn = (signalChgDone s).attn :=
    signalChgDone_attn_congr rfl rfl rfl
  unfold completeBlock completionSignalled
  dsimp only
  split
  · rw [signalChgDone_eq, same]
    rfl
  · rfl

theorem nextBlock_idle {s : State} (h : s.change.stop = .abort ∨ s.change.block.flagE = true) :
    nextBlock s = stopUnit .idle s := by
  unfold nextBlock
  dsimp only
  split <;> simp_all

theorem nextBlock_suspended {s : State} (last : s.change.block.flagE = false)
    (h : s.change.stop = .suspend ∨ (s.change.stop = .none ∧ s.change.block.flagS = true)) :
    nextBlock s = stopUnit .suspended s := by
  unfold nextBlock
  dsimp only
  split <;> simp_all

theorem nextBlock_reads {s : State} (stop : s.change.stop = .none) (last : s.change.block.flagE = false)
    (flagS : s.change.block.flagS = false) : nextBlock s = readBlock s.change.heldLink s := by
  simp [nextBlock, stop, last, flagS]

/-- R160: the next state of the unit leaves the last completed block. -/
theorem nextBlock_last (s : State) : (nextBlock s).change.last = s.change.last := by
  unfold nextBlock
  dsimp only
  split
  · rw [stopUnit_eq]
  · split
    · rw [stopUnit_eq]
    · rw [stopUnit_eq]
  · split
    · rw [stopUnit_eq]
    · split
      · rw [stopUnit_eq]
      · rfl

/-- R160, step 3: the unit goes on, or raises CHG_STOPPED. -/
theorem nextBlock_attn (s : State) : (nextBlock s).attn = s.attn ∨ (nextBlock s).attn = raised .chgStopped s := by
  unfold nextBlock
  dsimp only
  split
  · rw [stopUnit_eq]; exact .inr rfl
  · split
    · rw [stopUnit_eq]; exact .inr rfl
    · rw [stopUnit_eq]; exact .inr rfl
  · split
    · rw [stopUnit_eq]; exact .inr rfl
    · split
      · rw [stopUnit_eq]; exact .inr rfl
      · exact .inl rfl

theorem completeBlock_last (s : State) : (completeBlock s).change.last = s.change.blockAddr := by
  rw [completeBlock_eq, nextBlock_last]

/-- R160, R183: a completion's signal, beside CHG_STOPPED where the unit stops. -/
theorem completeBlock_attn (s : State) :
    (completeBlock s).attn = completionSignalled s ∨
      (completeBlock s).attn = raised .chgStopped { s with attn := completionSignalled s } := by
  rw [completeBlock_eq]
  exact nextBlock_attn _

/-! ## The ends of the unit's operations -/

/-- R62, R160: the second beat of a STATUS WRITE is acknowledged. -/
theorem exec_statusWriteComplete {s : State} {i : Nat} {o : Op} {a result : Word} {h : Half} (held : s.op i = some o)
    (asked : o.request = .statusWrite a result h) (second : o.acked = 1) :
    exec (.statusWriteComplete i) s =
      .next
        (settle
          (completeBlock
            { s with
              port := { s.port with inFlight := s.port.inFlight.eraseIdx i },
              hostMem := s.hostMem.takeBeat o.beat })) := by
  have ends : o.endBy s (.response .ack) = some ({ o with acked := o.acked + 1 }, .ok) := by
    simp [Op.endBy, Op.respond, Op.finished, Request.writes, asked, second]
  have beat : o.beat.write = true := by simp [Op.beat, asked, second]
  show Host.Outcome.next (endEvent _ _ _ _) = _
  rw [endEvent_of_endBy held ends (by simp [asked, Request.kind]), endOp_ok, ackEnd, ackBeat, takeBeat_of_write s beat]
  simp only [deliverEnd, asked]
  rfl

/-- R62, R162: a STATUS WRITE that fails halts the unit. -/
theorem exec_statusWriteFail {s : State} {i : Nat} {o : Op} {a result : Word} {h : Half} {e : BusEnd} {out : OpOutcome}
    (held : s.op i = some o) (asked : o.request = .statusWrite a result h) (ends : o.endBy s e = some (o, out))
    (fault : out ≠ .ok) : exec (.statusWriteFail i e) s = .next (settle (haltUnit (endOp i o out s))) := by
  show Host.Outcome.next (endEvent _ _ _ _) = _
  rw [endEvent_fault held ends fault (by simp [asked, Request.kind])]
  simp only [deliverEnd, asked]
  rfl

/-- R161, R145: a BLOCK READ of the given mark that ends is the end of its own command. -/
theorem endEvent_blockRead {s : State} {i : Nat} {o o' : Op} {a : Word} {mark : Bool} {e : BusEnd} {out : OpOutcome}
    {test : Request → Bool → Bool} (held : s.op i = some o) (asked : o'.request = .blockRead a mark)
    (ends : o.endBy s e = some (o', out)) (passes : test o.request (out == .ok) = true) :
    endEvent test i e s = settle (blockReadEnds mark (endOp i o' out (ackEnd o e s))) := by
  rw [endEvent_of_endBy held ends passes]
  simp only [deliverEnd, asked]

theorem followLink_none {s : State} (h : s.change.stop = .none) : followLink s = readBlock s.change.heldLink s := by
  rw [followLink, h]

theorem followLink_suspend {s : State} (h : s.change.stop = .suspend) : followLink s = stopUnit .suspended s := by
  rw [followLink, h]

theorem Op.respond_request {o o' : Op} {r : BusResponse} {x : Option OpOutcome} (h : o.respond r = some (o', x)) :
    o'.request = o.request := by
  cases r with
  | error =>
    obtain ⟨rfl, _⟩ := Prod.mk.inj (Option.some.inj h)
    rfl
  | data w p =>
    simp only [Op.respond] at h
    split at h
    · exact absurd h nofun
    · split at h
      · obtain ⟨rfl, _⟩ := Prod.mk.inj (Option.some.inj h)
        rfl
      · obtain ⟨rfl, _⟩ := Prod.mk.inj (Option.some.inj h)
        rfl
  | ack =>
    simp only [Op.respond] at h
    split at h
    · obtain ⟨rfl, _⟩ := Prod.mk.inj (Option.some.inj h)
      rfl
    · exact absurd h nofun

/-- R63, R67: a BLOCK READ that ends with a fault. -/
theorem endOp_blockRead_fault (i : Nat) {o : Op} {a : Word} {mark : Bool} {out : OpOutcome} (s : State)
    (asked : o.request = .blockRead a mark) (fault : out ≠ .ok) :
    endOp i o out s =
      { s with
        port := portFaulted i o.request out (if out = .timeout then [o.beat] else []) s,
        attn := raised .memFault s } := by
  have beat : o.beat.write = false := by simp [Op.beat, asked]
  rw [endOp_fault i o s fault, cutOffBeat_of_read s beat]

/-! ## The obligations -/

/-- Settles O39: the controls that start a read. -/
theorem startAndResume : Obligations.StartAndResume := by
  intro s running
  refine ⟨fun state => ?_, fun state => ?_, fun state valid => ?_⟩
  · show Host.Outcome.next (controlStart s) = _
    rw [controlStart_of_running running state]
    rfl
  · show Host.Outcome.next (controlResume s) = _
    rw [controlResume_of_suspended running state]
    rfl
  · show Host.Outcome.next (controlResume s) = _
    rw [controlResume_of_idle running state valid]
    rfl

/-- Settles O40: the controls of a list in progress, and the refusals. -/
theorem controlsOfAListInProgress : Obligations.ControlsOfAListInProgress := by
  refine ⟨fun s opened => ⟨fun busy stop => ?_, fun state current => ?_, fun state => ?_, fun state => ?_⟩,
    fun s v opened => ?_⟩
  · exact congrArg Host.Outcome.next (controlSuspend_taken opened busy stop)
  · show Host.Outcome.next (controlAbort s) = _
    rw [controlAbort_reading opened state current, abandonRead_eq]
    rfl
  · refine ⟨abortWaiting (takeControl s), congrArg Host.Outcome.next (controlAbort_waiting opened state), ?_⟩
    rw [abortWaiting_eq]
    refine ⟨rfl, rfl, rfl, fun i => get_map_eq _ s.slots i, rfl, rfl, rfl, rfl, ?_⟩
    exact ⟨rfl, rfl, rfl, rfl, rfl, rfl, rfl, rfl, rfl, rfl, rfl, rfl, rfl⟩
  · exact congrArg Host.Outcome.next (controlAbort_storing opened state)
  · have start (h : s.running = false ∨ (s.change.state ≠ .idle ∧ s.change.state ≠ .halted)) :
        exec .start s = .next (refuseControl s) := congrArg Host.Outcome.next (controlStart_refused opened h)
    have resume (h : s.running = false ∨
          (s.change.state ≠ .suspended ∧ (s.change.state ≠ .idle ∨ s.change.lastValid = false))) :
        exec .resume s = .next (refuseControl s) := congrArg Host.Outcome.next (controlResume_refused opened h)
    have suspend (h : s.change.busy = false ∨ s.change.stop = .abort) :
        exec .suspend s = .next (refuseControl s) := congrArg Host.Outcome.next (controlSuspend_refused opened h)
    have abort (h : s.change.busy = false ∨ (s.change.state = .reading ∧ s.change.abandoned = true)) :
        exec .abort s = .next (refuseControl s) := congrArg Host.Outcome.next (controlAbort_refused opened h)
    refine ⟨fun idle => ⟨start (.inl idle), resume (.inl idle)⟩, fun busy => ?_,
      fun idle => ⟨suspend (.inl idle), abort (.inl idle)⟩, fun state => start (.inr ?_), fun state => resume (.inr ?_),
      fun stop => suspend (.inr stop), fun state none => resume (.inr ⟨?_, .inr none⟩),
      fun state again => abort (.inr ⟨state, again⟩), fun unknown => ⟨?_, ?_⟩⟩
    · have state := (ChangeUnit.busy_iff s.change).mp busy
      constructor
      · exact start (.inr (by rcases state with h | h | h <;> simp [h]))
      · exact resume (.inr (by rcases state with h | h | h <;> simp [h]))
    · simp [state]
    · simp [state]
    · simp [state]
    · exact congrArg Host.Outcome.next (if_pos (by simp [opened, controlTaken_unknown unknown]))
    · exact congrArg Host.Outcome.next (writeChangeCtrl_unknown opened unknown)

/-- Settles O51: the read again of a RESUME, and the ends of a BLOCK READ that give no block. -/
theorem blockReadsThatApplyNothing : Obligations.BlockReadsThatApplyNothing := by
  intro s i o
  refine ⟨fun w p arrives stop => ?_, fun w p arrives stop => ?_, fun a e out held asked ends fault => ?_,
    fun a e out held asked ends fault => ?_, fun a w o' held asked responds => ?_⟩
  · show Host.Outcome.next (rereadDone i w p s) = _
    simp only [rereadDone, arrives]
    rw [followLink_none]
    · rfl
    · exact stop
  · show Host.Outcome.next (rereadDone i w p s) = _
    simp only [rereadDone, arrives]
    rw [followLink_suspend, stopUnit_eq]
    · rfl
    · exact stop
  · show Host.Outcome.next (endEvent _ _ _ _) = _
    have failed : (out == .ok) = false := by simpa using fault
    rw [endEvent_blockRead held asked ends (by simp [asked, Request.kind, Request.abandon, failed]),
      (endBy_fault ends fault).2, endOp_blockRead_fault i s asked fault]
    rfl
  · show Host.Outcome.next (endEvent _ _ _ _) = _
    rw [endEvent_blockRead held asked ends (by simp [asked, Request.kind, Request.abandon]),
      (endBy_fault ends fault).2, endOp_blockRead_fault i s asked fault]
    rfl
  · show Host.Outcome.next (endEvent _ _ _ _) = _
    have ends : o.endBy s (.response (.data w (oddParity w))) = some (o', .ok) := by simp only [Op.endBy, responds]
    rw [endEvent_blockRead held ((Op.respond_request responds).trans asked) ends
      (by simp [asked, Request.kind, Request.abandon])]
    rfl

/-- Settles O52: a STATUS WRITE that ends OK completes the block; one that fails halts the unit. -/
theorem statusWriteEnds : Obligations.StatusWriteEnds := by
  intro s i o a result h held asked
  refine ⟨fun second => ?_, fun e out ends fault => ?_⟩
  · rw [exec_statusWriteComplete held asked second, completeBlock_eq, completionSignalled_of_port]
    refine ⟨fun stop => ?_, fun stop last => ?_, fun stop last flagS => ?_, fun stop last flagS => ?_⟩
    · rw [nextBlock_idle, stopUnit_eq]
      · rfl
      · exact stop
    · rw [nextBlock_suspended, stopUnit_eq]
      · rfl
      · exact last
      · exact .inl stop
    · rw [nextBlock_suspended, stopUnit_eq]
      · rfl
      · exact last
      · exact .inr ⟨stop, flagS⟩
    · rw [nextBlock_reads, readBlock_eq]
      · rfl
      · exact stop
      · exact last
      · exact flagS
  · refine ⟨_, exec_statusWriteFail held asked ends fault, ?_⟩
    rw [endOp_fault i o s fault]
    exact ⟨rfl, rfl, rfl, cutOffBeat_hostMem o.beat s, rfl, rfl, rfl⟩

/-- A raise leaves the levels, the coalescing part and the flags of the other sources. -/
theorem raised_fields (x : Source) (s : State) :
    (raised x s).holding = s.attn.holding ∧ (raised x s).count = s.attn.count ∧
      ((raised x s).pending = s.attn.pending ||| x.bit ∨ (raised x s).pending = s.attn.pending) := by
  unfold raised
  split
  · exact ⟨rfl, rfl, .inl rfl⟩
  · exact ⟨rfl, rfl, .inr rfl⟩

/-- CHG_STOPPED is not the flag of CHG_DONE. -/
theorem raised_chgStopped_mask (s : State) :
    (raised .chgStopped s).pending &&& 0x001#12 = s.attn.pending &&& 0x001#12 := by
  rcases (raised_fields .chgStopped s).2.2 with set | same
  · have bit : Source.chgStopped.bit = 2#12 := by decide
    rw [set, bit]
    ext i hi
    simp only [BitVec.getElem_and, BitVec.getElem_or, BitVec.getElem_one]
    rcases Nat.eq_zero_or_pos i with rfl | pos
    · simp
    · simp [Nat.ne_of_gt pos]
  · rw [same]

/-! ## Coalescing (R183, R184) -/

/-- R184: a write of threshold and window in range. -/
theorem writeCoalesce_taken {s : State} {threshold window : Nat} (opened : s.isOpen = true) (pos : 1 ≤ threshold)
    (eight : threshold ≤ 8) (small : window ≤ 1023) :
    writeCoalesce threshold window s =
      { s with
        attn :=
          { s.attn with
            pending := if s.attn.holding = true ∧ 0 < s.attn.count then s.attn.pending ||| 1#12 else s.attn.pending,
            threshold := threshold, window := window, holding := false, count := 0 } } := by
  have inRange : ¬ ((!s.isOpen || threshold = 0 || 8 < threshold || 1023 < window) = true) := by
    simp [opened]
    omega
  rw [writeCoalesce, if_neg inRange]
  by_cases held : s.attn.holding = true ∧ 0 < s.attn.count
  · rw [if_pos held, if_pos (by simpa using held), raise, if_pos opened]
    rfl
  · rw [if_neg held, if_neg (by simpa using held)]
    rfl

/-- R183, Table 10.3: the expiry with a count held. -/
theorem expireWindow_held {s : State} (opened : s.isOpen = true) (held : 0 < s.attn.count) :
    expireWindow s =
      { s with
        attn := { s.attn with pending := s.attn.pending ||| 1#12, count := 0, windowStart := s.clock.timeBase } } := by
  rw [expireWindow, if_neg (Nat.ne_of_gt held), raise, if_pos opened]
  rfl

theorem expireWindow_quiet {s : State} (none : s.attn.count = 0) :
    expireWindow s = { s with attn := { s.attn with holding := false } } := if_pos none

/-- R183: a completion in QUIET is signalled at once. -/
theorem signalChgDone_quiet {s : State} (opened : s.isOpen = true) (quiet : s.attn.holding = false) :
    signalChgDone s =
      { s with
        attn :=
          if s.attn.window = 0 then { s.attn with pending := s.attn.pending ||| 1#12 }
          else
            { s.attn with
              pending := s.attn.pending ||| 1#12, holding := true, count := 0, windowStart := s.clock.timeBase } } := by
  rw [signalChgDone, if_neg (by simp [quiet]), raise, if_pos opened]
  dsimp only
  split <;> rfl

/-- R183: a completion in HOLDING below the threshold is counted. -/
theorem signalChgDone_counted {s : State} (holding : s.attn.holding = true)
    (below : s.attn.count + 1 < s.attn.threshold) :
    signalChgDone s = { s with attn := { s.attn with count := s.attn.count + 1 } } := by
  rw [signalChgDone, if_pos holding, if_pos below]
  rfl

/-- R183: the completion that reaches the threshold is signalled. -/
theorem signalChgDone_reached {s : State} (opened : s.isOpen = true) (holding : s.attn.holding = true)
    (reached : s.attn.threshold ≤ s.attn.count + 1) :
    signalChgDone s =
      { s with
        attn := { s.attn with pending := s.attn.pending ||| 1#12, count := 0, windowStart := s.clock.timeBase } } := by
  rw [signalChgDone, if_pos holding, if_neg (Nat.not_lt.mpr reached), raise, if_pos opened]
  rfl

/-- Settles O14: the writes, the expiry and the signal are each one state; a STATUS WRITE that ends OK signals. -/
theorem completionsAreCoalesced : Obligations.CompletionsAreCoalesced := by
  refine ⟨fun s v => ⟨rfl, fun ⟨_, threshold, window, count⟩ => ?_⟩,
    fun s t w => ⟨fun opened pos eight small => congrArg Host.Outcome.next (writeCoalesce_taken opened pos eight small),
      fun outside => congrArg Host.Outcome.next (if_pos ?_)⟩,
    fun s opened holding due => ?_,
    fun s opened => ⟨signalChgDone_quiet opened, signalChgDone_counted, signalChgDone_reached opened,
      fun i o a result h held asked second flagI => ?_⟩⟩
  · exact coalesceWord_fields s.attn threshold window (by omega)
  · rcases outside with closed | zero | above | wide
    · simp [closed]
    · simp [zero]
    · simp [above]
    · simp [wide]
  · have expires : exec .coalesceWindowExpiry s = .next (expireWindow s) :=
      congrArg Host.Outcome.next (if_pos (by simp [windowDue, holding, due]))
    exact ⟨fun held => expires.trans (congrArg _ (expireWindow_held opened held)),
      fun none => expires.trans (congrArg _ (expireWindow_quiet none))⟩
  · refine ⟨_, exec_statusWriteComplete held asked second, completeBlock_last _, ?_⟩
    have signalled : completionSignalled s = (signalChgDone s).attn := if_pos flagI
    rcases completeBlock_attn _ with attn | attn
    · rw [attn, completionSignalled_of_port, signalled]
      exact ⟨rfl, rfl, rfl⟩
    · rw [attn, completionSignalled_of_port, signalled]
      exact ⟨raised_chgStopped_mask _, (raised_fields _ _).1, (raised_fields _ _).2.1⟩

end Sys2Proof.Machine
end

section
/-! The taking of a change block (R147, R148) and the tariff and range commands (chapter 7), with the settling of O41, O42,
O43 and O44. -/

namespace Sys2Proof.Machine

/-! ## Taking a block -/

/-- R147, R66: the state in which a taken block's command is applied: its BLOCK READ is over, and the unit holds the block
and its link. -/
def blockTaken (i : Nat) (o : Op) (s : State) : State :=
  { s with
    change := { s.change with block := parseBlock o.words, heldLink := (parseBlock o.words).link },
    port := { s.port with inFlight := s.port.inFlight.eraseIdx i } }

theorem holdBlock_endOp (i : Nat) (o : Op) (s : State) :
    holdBlock (parseBlock o.words) (endOp i o .ok s) = blockTaken i o s := rfl

@[simp] theorem blockTaken_block (i : Nat) (o : Op) (s : State) :
    (blockTaken i o s).change.block = parseBlock o.words := rfl

theorem exec_instr (c : ChangeCommand) (i : Nat) (w : Word) (p : BitVec 4) (s : State) :
    exec (c.instr i w p) s = .next (blockCommand c i w p s) := by
  cases c <;> rfl

/-- R148: a block that is ready has its command run. -/
theorem exec_of_blockReady {c : ChangeCommand} {i : Nat} {w : Word} {p : BitVec 4} {s : State} {o : Op}
    (ready : blockReady c i w p s o) : exec (c.instr i w p) s = .next (settle (runCommand c (blockTaken i o s))) := by
  obtain ⟨arrives, checked⟩ := ready
  rw [exec_instr, blockCommand]
  simp only [arrives, checked, if_true, holdBlock_endOp]

/-- R147: a block that fails its checks is completed with the status of the check. -/
theorem exec_blockCheckFailed {i : Nat} {w : Word} {p : BitVec 4} {s : State} {o : Op} {c : Status}
    (arrives : blockArrives false i w p s = some o) (failed : checkBlock (parseBlock o.words) = .error c) :
    exec (.blockCheckFailed i w p) s = .next (settle (storeStatus c 0 (blockTaken i o s))) := by
  show Host.Outcome.next (blockRefused i w p s) = _
  simp only [blockRefused, arrives, failed, holdBlock_endOp]

/-- R159: a status stored over the state of a taken block completes the block. -/
theorem blockCompletes_storeStatus (c : Status) (result : Word) {i : Nat} {o : Op} {s t : State}
    (change : t.change = (blockTaken i o s).change) (port : t.port = (blockTaken i o s).port) :
    blockCompletes s.change.key c result i o s (storeStatus c result t) := by
  rw [storeStatus_eq]
  simp only [blockCompletes, State.setPort_change, State.setChange_change, State.setPort_port, change, port]
  exact ⟨rfl, rfl⟩

/-! ## The checks (R147) -/

theorem checkBlock_long {b : Block} (h : 184 < b.length.toNat) : checkBlock b = .error .badArgument := if_pos h

theorem checkBlock_unknown {b : Block} (h : b.length.toNat ≤ 184) (unknown : commandOf b.command = none) :
    checkBlock b = .error .badCommand := by
  simp only [checkBlock, Nat.not_lt.mpr h, unknown, if_false]

theorem checkBlock_known {b : Block} {c : ChangeCommand} (h : b.length.toNat ≤ 184) (known : commandOf b.command = some c) :
    checkBlock b = if lengthFits c b then .ok c else .error .badArgument := by
  simp only [checkBlock, Nat.not_lt.mpr h, known, if_false]

/-! ## Banks -/

theorem Tariff.active_setShadow (t : Tariff) (b : Bank) : (t.setShadow b).active = t.active := by
  unfold Tariff.setShadow Tariff.active
  split <;> simp_all

theorem Tariff.shadow_setShadow (t : Tariff) (b : Bank) : (t.setShadow b).shadow = b := by
  unfold Tariff.setShadow Tariff.shadow
  split <;> simp_all

theorem Tariff.setShadow_fields (t : Tariff) (b : Bank) :
    (t.setShadow b).activeB = t.activeB ∧ (t.setShadow b).epoch = t.epoch ∧ (t.setShadow b).view = t.view := by
  unfold Tariff.setShadow
  split <;> exact ⟨rfl, rfl, rfl⟩

/-! ## Tariff commands -/

theorem loadClass_taken {b : Block} {s : State} (n : ClassNo) (index : b.index = n.val)
    (inRange : (classEntryOf b.payload).inRange = true) :
    loadClass b s =
      (s.setTariff
        (s.tariff.setShadow
          { s.tariff.shadow with classes := s.tariff.shadow.classes.set n.val (classEntryOf b.payload) n.isLt }),
        .ok, epochResult s) := by
  rw [loadClass]
  dsimp only
  rw [dif_pos (index ▸ n.isLt), if_pos inRange]
  simp only [index]

theorem loadClass_refused {b : Block} (s : State) (h : 7 < b.index ∨ (classEntryOf b.payload).inRange = false) :
    loadClass b s = (s, .badArgument, 0) := by
  rw [loadClass]
  dsimp only
  split
  · rw [if_neg]
    rcases h with above | out
    · omega
    · simp [out]
  · rfl

theorem get_ofFn_eq {α : Type} {n : Nat} (f : Fin n → α) (i : Fin n) : (Vector.ofFn f).get i = f i := by
  show (Vector.ofFn f)[i.val] = f i
  simp

theorem faresOf_get (p : List Byte) (a b : Group) :
    ((faresOf p).get a).get b = halfAt p (16 * a.val + 2 * b.val) := by
  rw [faresOf, get_ofFn_eq, get_ofFn_eq]

theorem setRange_taken {b : Block} {s : State} (n : Fin 16) (index : b.index = n.val) {r : RangeRule}
    (rule : rangeRuleOf b.payload = some r) :
    setRange b s =
      (s.setRanges (s.ranges.set n.val r n.isLt), .ok,
        BitVec.ofNat 32 (rulesInForce (s.setRanges (s.ranges.set n.val r n.isLt)))) := by
  rw [setRange, dif_pos (index ▸ n.isLt)]
  simp only [rule, index]

theorem setRange_refused {b : Block} (s : State) (h : 15 < b.index ∨ rangeRuleOf b.payload = none) :
    setRange b s = (s, .badArgument, 0) := by
  rw [setRange]
  split
  · rcases h with above | none
    · omega
    · simp only [none]
  · rfl

/-! ## The winning rule (R135, R136) -/

theorem RangeRule.covers_iff (r : RangeRule) (x : Ident) :
    r.covers x = true ↔
      r.level.val ≠ 0 ∧ x.toNat / 2 ^ r.exponent.val = r.base.toNat / 2 ^ r.exponent.val := by
  simp only [RangeRule.covers, Bool.and_eq_true, bne_iff_ne, beq_iff_eq, ← BitVec.toNat_inj, BitVec.toNat_ushiftRight,
    Nat.shiftRight_eq_div_pow]

/-- R136: rule `n` wins over rule `m`, or is it. -/
def winsOver (s : State) (n m : Fin 16) : Prop :=
  (s.ranges.get m).level < (s.ranges.get n).level ∨
    ((s.ranges.get m).level = (s.ranges.get n).level ∧ n ≤ m)

/-- R136: a rule found among those tried so far: the winner of them, or none when none covers. -/
def wonAmong (s : State) (x : Ident) (tried : List (Fin 16)) : Option (Fin 16) → Prop
  | none => ∀ m ∈ tried, (s.ranges.get m).covers x = false
  | some n =>
    n ∈ tried ∧ (s.ranges.get n).covers x = true ∧ ∀ m ∈ tried, (s.ranges.get m).covers x = true → winsOver s n m

theorem wonAmong_next {s : State} {x : Ident} {tried : List (Fin 16)} {best : Option (Fin 16)} {y : Fin 16}
    (won : wonAmong s x tried best) (later : ∀ m ∈ tried, m < y) :
    wonAmong s x (tried ++ [y]) (if beats s x best y then some y else best) := by
  cases best with
  | none =>
    simp only [beats, Bool.and_true]
    split
    · next covers =>
      refine ⟨by simp, covers, fun m hm covered => ?_⟩
      rcases List.mem_append.mp hm with old | new
      · exact absurd covered (by simp [won m old])
      · exact .inr (by simp [List.mem_singleton.mp new])
    · next uncovered =>
      intro m hm
      rcases List.mem_append.mp hm with old | new
      · exact won m old
      · rw [List.mem_singleton.mp new]
        simpa using uncovered
  | some b =>
    obtain ⟨mem, covered, best⟩ := won
    simp only [beats, Bool.and_eq_true, decide_eq_true_eq]
    split
    · next higher =>
      obtain ⟨covers, higher⟩ := higher
      refine ⟨by simp, covers, fun m hm coveredM => ?_⟩
      rcases List.mem_append.mp hm with old | new
      · rcases best m old coveredM with below | ⟨same, _⟩
        · exact .inl (Fin.lt_trans below higher)
        · exact .inl (same ▸ higher)
      · exact .inr (by simp [List.mem_singleton.mp new])
    · next notHigher =>
      refine ⟨List.mem_append_left _ mem, covered, fun m hm coveredM => ?_⟩
      rcases List.mem_append.mp hm with old | new
      · exact best m old coveredM
      · obtain rfl := List.mem_singleton.mp new
        rcases Fin.lt_or_eq_of_le (Fin.not_lt.mp fun higher => notHigher ⟨coveredM, higher⟩) with below | same
        · exact .inl below
        · exact .inr ⟨same, Fin.le_of_lt (later b mem)⟩

theorem foldl_wonAmong (s : State) (x : Ident) (l tried : List (Fin 16)) (best : Option (Fin 16))
    (won : wonAmong s x tried best) (sorted : (tried ++ l).Pairwise (· < ·)) :
    wonAmong s x (tried ++ l) (l.foldl (fun best n => if beats s x best n then some n else best) best) := by
  induction l generalizing tried best with
  | nil => simpa using won
  | cons y l ih =>
    have later : ∀ m ∈ tried, m < y := fun m hm =>
      (List.pairwise_append.mp sorted).2.2 m hm y List.mem_cons_self
    have next := ih (tried ++ [y]) _ (wonAmong_next won later) (by simpa using sorted)
    simpa using next

theorem winningRule_won (x : Ident) (s : State) : wonAmong s x allRules (winningRule x s) :=
  foldl_wonAmong s x allRules [] none (fun _ h => absurd h List.not_mem_nil) (by decide)

/-- R136: the winning rule covers the identifier and wins over every other that does. -/
theorem winningRule_iff (x : Ident) (s : State) (n : Fin 16) :
    winningRule x s = some n ↔
      (s.ranges.get n).covers x = true ∧ ∀ m, (s.ranges.get m).covers x = true → winsOver s n m := by
  have all (m : Fin 16) : m ∈ allRules := List.mem_finRange m
  have won := winningRule_won x s
  constructor
  · intro h
    rw [h] at won
    exact ⟨won.2.1, fun m => won.2.2 m (all m)⟩
  · intro ⟨covers, wins⟩
    cases h : winningRule x s with
    | none =>
      rw [h] at won
      exact absurd covers (by simp [won n (all n)])
    | some b =>
      rw [h] at won
      obtain ⟨_, covered, best⟩ := won
      have here := best n (all n) covers
      have there := wins b covered
      unfold winsOver at here there
      congr 1
      omega

/-! ## The obligations -/

/-- Settles O41: each outcome of the checks is stored. -/
theorem nopAndFailedChecks : Obligations.NopAndFailedChecks := by
  intro s i w p o arrives
  refine ⟨fun nop short => ?_, fun c failed => ?_⟩
  · have ready : blockReady .nop i w p s o := by
      refine ⟨arrives, ?_⟩
      rw [checkBlock_known short (by rw [nop]; rfl)]
      rfl
    exact ⟨_, exec_of_blockReady ready, blockCompletes_storeStatus _ _ rfl rfl, rfl, rfl, rfl, rfl,
      rfl, rfl, rfl, rfl, rfl, rfl, rfl, rfl, rfl, rfl, rfl, rfl, rfl⟩
  · have checked : checkBlock (parseBlock o.words) = .error c := by
      rcases failed with ⟨long, rfl⟩ | ⟨short, unknown, rfl⟩ | ⟨short, ⟨d, known, unfit⟩, rfl⟩
      · exact checkBlock_long long
      · exact checkBlock_unknown short unknown
      · rw [checkBlock_known short known, unfit]
        rfl
    exact ⟨_, exec_blockCheckFailed arrives checked, blockCompletes_storeStatus _ _ rfl rfl, rfl, rfl, rfl, rfl,
      rfl, rfl, rfl, rfl, rfl, rfl, rfl, rfl, rfl, rfl, rfl, rfl, rfl⟩

/-- Settles O42: the loads write the shadow bank whole. -/
theorem loadsWriteTheShadowBank : Obligations.LoadsWriteTheShadowBank := by
  intro s i w p o
  refine ⟨fun ready => ⟨fun n index inRange => ?_, fun refused => ?_⟩, fun ready => ?_⟩
  · refine ⟨_, exec_of_blockReady ready, ?_⟩
    simp only [runCommand, blockTaken_block]
    rw [loadClass_taken n index inRange]
    obtain ⟨activeB, epoch, view⟩ := s.tariff.setShadow_fields
      { s.tariff.shadow with
        classes := s.tariff.shadow.classes.set n.val (classEntryOf (parseBlock o.words).payload) n.isLt }
    refine ⟨blockCompletes_storeStatus _ _ rfl rfl, Tariff.active_setShadow _ _, ?_, ?_, activeB, epoch, view, rfl, rfl⟩
    · exact (congrArg Bank.fares (Tariff.shadow_setShadow _ _)).trans rfl
    · exact (congrArg Bank.classes (Tariff.shadow_setShadow _ _)).trans rfl
  · refine ⟨_, exec_of_blockReady ready, ?_⟩
    simp only [runCommand, blockTaken_block]
    rw [loadClass_refused _ refused]
    exact ⟨blockCompletes_storeStatus _ _ rfl rfl,
      ⟨rfl, rfl, rfl, rfl, rfl, rfl, rfl, rfl, rfl, rfl, rfl, rfl, rfl⟩, rfl⟩
  · refine ⟨_, exec_of_blockReady ready, ?_⟩
    obtain ⟨activeB, epoch, view⟩ := s.tariff.setShadow_fields
      { s.tariff.shadow with fares := faresOf (parseBlock o.words).payload }
    have shadow := s.tariff.shadow_setShadow { s.tariff.shadow with fares := faresOf (parseBlock o.words).payload }
    refine ⟨blockCompletes_storeStatus _ _ rfl rfl, Tariff.active_setShadow _ _,
      (congrArg Bank.classes shadow).trans rfl,
      fun a b => ?_, activeB, epoch, rfl, rfl⟩
    exact (congrArg (fun x : Bank => x.baseFare a b) shadow).trans (faresOf_get _ a b)

/-- Settles O43: the copy of the active bank, and the exchange of the banks' roles. -/
theorem copyActiveAndSwitchTariff : Obligations.CopyActiveAndSwitchTariff := by
  intro s i w p o arrives
  refine ⟨fun command empty => ?_, fun command empty => ?_, fun command payload => ?_⟩
  · have ready : blockReady .copyActive i w p s o := by
      refine ⟨arrives, ?_⟩
      rw [checkBlock_known (by simp [empty]) (by rw [command]; rfl)]
      simp [lengthFits, empty]
    obtain ⟨activeB, epoch, view⟩ := s.tariff.setShadow_fields s.tariff.active
    exact ⟨_, exec_of_blockReady ready, blockCompletes_storeStatus _ _ rfl rfl, Tariff.shadow_setShadow _ _,
      Tariff.active_setShadow _ _, activeB, epoch, view, rfl, rfl, rfl⟩
  · have ready : blockReady .switchTariff i w p s o := by
      refine ⟨arrives, ?_⟩
      rw [checkBlock_known (by simp [empty]) (by rw [command]; rfl)]
      simp [lengthFits, empty]
    refine ⟨_, exec_of_blockReady ready, blockCompletes_storeStatus _ _ rfl rfl, ?_, ?_, rfl, rfl, rfl, rfl, rfl, rfl⟩
    · show (if (!s.tariff.activeB) = true then s.tariff.bankB else s.tariff.bankA) = s.tariff.shadow
      unfold Tariff.shadow
      cases s.tariff.activeB <;> rfl
    · show (if (!s.tariff.activeB) = true then s.tariff.bankA else s.tariff.bankB) = s.tariff.active
      unfold Tariff.active
      cases s.tariff.activeB <;> rfl
  · have checked : checkBlock (parseBlock o.words) = .error .badArgument := by
      by_cases long : 184 < (parseBlock o.words).length.toNat
      · exact checkBlock_long long
      · have nonzero : (parseBlock o.words).length.toNat ≠ 0 := fun zero => payload (BitVec.eq_of_toNat_eq zero)
        rcases command with copy | switch
        · rw [checkBlock_known (c := .copyActive) (Nat.not_lt.mp long) (by rw [copy]; rfl)]
          simp [lengthFits, nonzero]
        · rw [checkBlock_known (c := .switchTariff) (Nat.not_lt.mp long) (by rw [switch]; rfl)]
          simp [lengthFits, nonzero]
    exact ⟨_, exec_blockCheckFailed arrives checked, blockCompletes_storeStatus _ _ rfl rfl, rfl⟩

/-- Settles O44: a rule rewritten, and the choice of the winning rule. -/
theorem setRangeAndTheWinningRule : Obligations.SetRangeAndTheWinningRule := by
  refine ⟨fun s i w p o ready => ⟨fun n r index rule => ?_, fun refused => ?_⟩, fun s x n =>
    ⟨fun r => r.covers_iff x, winningRule_iff x s n⟩⟩
  · refine ⟨_, exec_of_blockReady ready, ?_⟩
    simp only [runCommand, blockTaken_block]
    rw [setRange_taken n index rule]
    exact ⟨rfl, blockCompletes_storeStatus _ _ rfl rfl, rfl, rfl, rfl, rfl⟩
  · refine ⟨_, exec_of_blockReady ready, ?_⟩
    simp only [runCommand, blockTaken_block]
    rw [setRange_refused _ refused]
    exact ⟨blockCompletes_storeStatus _ _ rfl rfl,
      rfl, rfl, rfl, rfl, rfl, rfl, rfl, rfl, rfl, rfl, rfl, rfl, rfl⟩

end Sys2Proof.Machine
end

section
/-! The port (chapter 4): parity and status bytes, the beginning of requests, good beats, timeouts and late responses, with
the settling of O36, O37 and O38. -/

namespace Sys2Proof.Machine

/-! ## Parity (R61) -/

/-- R61: with its parity bit a byte lane holds an odd number of ones. -/
theorem laneParity_odd (b : Byte) :
    ((List.range 8).countP (fun k => b.getLsbD k) + (laneParity b).toNat) % 2 = 1 := by
  have bits : ∀ b0 b1 b2 b3 b4 b5 b6 b7 : Bool,
      ([b0, b1, b2, b3, b4, b5, b6, b7].countP id +
        (!(b0 ^^ b1 ^^ b2 ^^ b3 ^^ b4 ^^ b5 ^^ b6 ^^ b7)).toNat) % 2 = 1 := by decide
  have list : (List.range 8).countP (fun k => b.getLsbD k) =
      ([b[0], b[1], b[2], b[3], b[4], b[5], b[6], b[7]] : List Bool).countP id := by
    rw [show List.range 8 = [0, 1, 2, 3, 4, 5, 6, 7] from rfl]
    simp only [List.countP_cons, List.countP_nil, id_eq]
    rfl
  rw [list]
  exact bits b[0] b[1] b[2] b[3] b[4] b[5] b[6] b[7]

/-- R61: bit `k` of the odd parity is that of lane `k`. -/
theorem oddParity_getLsbD (w : Word) (lane : Fin 4) :
    (oddParity w).getLsbD lane.val = laneParity (w.extractLsb' (8 * lane.val) 8) := by
  unfold oddParity
  have bit : ∀ (p0 p1 p2 p3 : Bool) (k : Fin 4),
      (BitVec.ofBool p3 ++ BitVec.ofBool p2 ++ BitVec.ofBool p1 ++ BitVec.ofBool p0).getLsbD k.val =
        match k with
        | 0 => p0
        | 1 => p1
        | 2 => p2
        | 3 => p3 := by
    decide
  rw [bit]
  fin_cases lane <;> rfl

/-- R61, R71: odd parity on each byte lane of a word. -/
theorem oddParity_odd (w : Word) (lane : Fin 4) :
    ((List.range 8).countP (fun k => w.getLsbD (8 * lane.val + k)) + ((oddParity w).getLsbD lane.val).toNat) % 2 =
      1 := by
  rw [oddParity_getLsbD]
  have lanes : (List.range 8).countP (fun k => w.getLsbD (8 * lane.val + k)) =
      (List.range 8).countP (fun k => (w.extractLsb' (8 * lane.val) 8).getLsbD k) := by
    refine List.countP_congr fun k hk => ?_
    simp [List.mem_range.mp hk]
  rw [lanes]
  exact laneParity_odd _

/-! ## Good beats (R61, R62) -/

/-- R61, R62: a good beat that is not the last. -/
theorem beatResponse_continues {s : State} {j : Nat} {o o' : Op} {r : BusResponse} (held : s.op j = some o)
    (goesOn : o.respond r = some (o', none)) : beatResponse j r s = continueOp j o o' r s := by
  simp only [beatResponse, held, goesOn]

/-- R61: a good word of a read that is not its last. -/
theorem exec_beatResponse_data {s : State} {j : Nat} {o : Op} {w : Word} (held : s.op j = some o)
    (reads : o.request.writes = false) (more : ({ o with words := o.words ++ [w] } : Op).finished = false) :
    exec (.beatResponse j (.data w (oddParity w))) s =
      .next
        { s with port := { s.port with inFlight := s.port.inFlight.set j { o with words := o.words ++ [w] } } } := by
  have goesOn : o.respond (.data w (oddParity w)) = some ({ o with words := o.words ++ [w] }, none) := by
    simp [Op.respond, reads, more]
  exact congrArg Host.Outcome.next (beatResponse_continues held goesOn)

/-- R62: an acknowledgement of a write beat that is not its last. -/
theorem exec_beatResponse_ack {s : State} {j : Nat} {o : Op} (held : s.op j = some o)
    (writes : o.request.writes = true) (more : ({ o with acked := o.acked + 1 } : Op).finished = false)
    (beat : o.beat.write = true) :
    exec (.beatResponse j .ack) s =
      .next
        { s with
          port := { s.port with inFlight := s.port.inFlight.set j { o with acked := o.acked + 1 } },
          hostMem := s.hostMem.takeBeat o.beat } := by
  have goesOn : o.respond .ack = some ({ o with acked := o.acked + 1 }, none) := by
    simp [Op.respond, writes, more]
  show Host.Outcome.next (beatResponse j .ack s) = _
  rw [beatResponse_continues held goesOn, continueOp, ackBeat, takeBeat_of_write _ beat]
  rfl

/-! ## Timeouts (R64) -/

theorem Op.timedOut_iff (o : Op) (s : State) : o.timedOut s = true ↔ 2 ≤ elapsedMs s o.started := by
  simp [Op.timedOut]

theorem Op.endBy_timeout {o : Op} {s : State} (late : o.timedOut s = true) : o.endBy s .timeout = some (o, .timeout) :=
  if_pos late

/-- R64: PORT_TIMEOUT is the failing end of the operation whose timer it is. -/
theorem portTimeoutEvent_eq_endEvent {s : State} {j : Nat} {o : Op} (held : s.op j = some o)
    {test : Request → Bool → Bool} (passes : test o.request false = true) :
    portTimeoutEvent j s = endEvent test j .timeout s := by
  simp only [portTimeoutEvent, endEvent, held, Op.endBy]
  by_cases late : o.timedOut s = true
  · have failed : (OpOutcome.timeout == .ok) = false := rfl
    simp only [late, if_true, failed, passes]
    rfl
  · simp only [late, if_false, Bool.false_eq_true]

/-! ## The obligations -/

/-- Settles O38: the late response is counted; a late acknowledgement is taken. -/
theorem lateResponsesAreDiscarded : Obligations.LateResponsesAreDiscarded := by
  intro s k b r stray answers
  show Host.Outcome.next (lateResponse k r s) = _
  simp only [lateResponse, stray, answers, if_true]
  by_cases ack : r = .ack
  · subst ack
    have write : b.write = true := answers
    rw [if_pos rfl, if_pos rfl, takeBeat_of_write _ write]
    rfl
  · rw [if_neg ack, if_neg ack]
    rfl

/-- Settles O37: the timer's expiry is the failing end that the operation's own row gives. -/
theorem portTimesOut : Obligations.PortTimesOut := by
  intro s j o held
  have ends (test : Request → Bool → Bool) (passes : test o.request false = true) :
      exec (.portTimeout j) s = .next (endEvent test j .timeout s) :=
    congrArg Host.Outcome.next (portTimeoutEvent_eq_endEvent held passes)
  refine ⟨fun early => ?_, fun a late asked => ?_, fun i k a asked => ?_, fun i k a image asked => ?_,
    fun a result h asked => ?_, fun a asked => ?_, fun late => ?_⟩
  · have running : ¬ (o.timedOut s = true) := by rw [Op.timedOut_iff]; omega
    show Host.Outcome.next (portTimeoutEvent j s) = _
    simp only [portTimeoutEvent, held, running, if_false, Bool.false_eq_true]
  · rw [ends (fun q _ => q.kind == .blockRead) (by simp [asked, Request.kind]),
      endEvent_blockRead held asked (Op.endBy_timeout ((Op.timedOut_iff o s).mpr late)) (by simp [asked, Request.kind]),
      endOp_blockRead_fault j (out := .timeout) _ asked (by decide), asked]
    rfl
  · exact ends _ (by simp [asked, Request.kind])
  · cases flush : (s.slot i).writeInFlight with
    | true =>
      rw [if_pos rfl]
      exact ends _ (by simp [asked, isFlushWrite, flush])
    | false =>
      rw [if_neg (by decide)]
      exact ends _ (by simp [asked, isEvictionWrite, flush])
  · exact ends _ (by simp [asked, Request.kind])
  · exact ends _ (by simp [asked, Request.kind, Request.abandon])
  · exact Op.endBy_timeout ((Op.timedOut_iff o s).mpr late)

/-- R61: the end of a BLOCK READ, by the payload length that its third word carries. -/
theorem blockReadWords_le_iff (ws : List Word) :
    blockReadWords ws ≤ ws.length ↔
      5 ≤ ws.length ∧ (184 < payloadLength ws ∨ 5 + (payloadLength ws + 3) / 4 ≤ ws.length) := by
  unfold blockReadWords
  dsimp only
  split
  · omega
  · split <;> omega

/-- Settles O36: beats and beginnings. -/
theorem portBeginsAndBeatsGoOn : Obligations.PortBeginsAndBeatsGoOn := by
  refine ⟨fun b => ⟨rfl, oddParity_odd b.data⟩, fun c => ?_, fun s => ⟨fun q rest list room => ?_, fun idle => ?_⟩,
    fun s j o held => ⟨fun i k a w asked more => ?_, fun i k a image asked more => ?_, fun a gone w asked => ?_,
      fun a result h asked => ⟨fun first => ?_, fun second => ?_⟩⟩⟩
  · cases c <;> exact ⟨by decide, by decide⟩
  · show Host.Outcome.next (beginOne s) = _
    simp only [beginOne, list, room, if_true]
    rfl
  · show Host.Outcome.next (beginOne s) = _
    unfold beginOne
    split
    · rfl
    · next q rest list =>
      rw [if_neg]
      rcases idle with empty | full
      · exact absurd (list.symm.trans empty) nofun
      · omega
  · exact exec_beatResponse_data held (by simp [asked, Request.writes])
      (by simp only [Op.finished, asked, List.length_append, List.length_singleton, decide_eq_false_iff_not]; omega)
  · have beat : o.beat =
        { addr := (a &&& ~~~3#32) + BitVec.ofNat 32 (4 * o.acked), write := true, data := image.getD o.acked 0,
          lanes := 15 } := by
      simp only [Op.beat, asked, wordAddr]
    rw [exec_beatResponse_ack held (by simp [asked, Request.writes])
      (by simp only [Op.finished, asked, decide_eq_false_iff_not]; omega) (by rw [beat]), beat]
  · intro ws n
    have finished : ({ o with words := ws } : Op).finished = decide (blockReadWords ws ≤ ws.length) := by
      simp only [Op.finished, asked]
    refine ⟨fun more => ?_, fun header whole => ?_, by simp only [Op.beat, asked, wordAddr]⟩
    · refine exec_beatResponse_data held (by simp [asked, Request.writes]) ?_
      rw [finished, decide_eq_false_iff_not, blockReadWords_le_iff]
      show ¬ (5 ≤ ws.length ∧ (184 < n ∨ 5 + (n + 3) / 4 ≤ ws.length))
      omega
    · have last : ({ o with words := ws } : Op).finished = true := by
        rw [finished, decide_eq_true_eq, blockReadWords_le_iff]
        exact ⟨header, whole⟩
      have reads : o.request.writes = false := by simp [asked, Request.writes]
      simp only [Op.respond, reads, if_true, if_false, Bool.false_eq_true]
      exact congrArg (fun out => some (({ o with words := ws } : Op), out)) (if_pos last)
  · have beat : o.beat = { addr := (a &&& ~~~3#32) + 4#32, write := true, data := result, lanes := 15 } := by
      simp only [Op.beat, asked, first, wordAddr, if_true]
    rw [exec_beatResponse_ack held (by simp [asked, Request.writes]) (by simp [Op.finished, asked, first])
      (by rw [beat]), beat, first]
  · simp only [Op.beat, asked, second, wordAddr]
    rfl

end Sys2Proof.Machine
end

section
/-! The Urgent Command Unit (chapter 9): BLOCK and the Block Mark Table, PEEK, FLUSH and RETRY-WRITE, unknown and lost
commands, with the settling of O53, O55 and O56. -/

namespace Sys2Proof.Machine

theorem keepsHost_refl (s : State) : keepsHost s s :=
  ⟨rfl, rfl, rfl, rfl, rfl, rfl, rfl, rfl, rfl, rfl, rfl, rfl, rfl⟩

/-- The first of the numbers below `n` that passes a test. -/
theorem find?_finRange_eq_some_iff {n : Nat} {p : Fin n → Bool} {m : Fin n} :
    (List.finRange n).find? p = some m ↔ p m = true ∧ ∀ j, j < m → p j = false := by
  rw [List.find?_eq_some_iff_getElem]
  constructor
  · rintro ⟨passes, i, hi, rfl, before⟩
    refine ⟨passes, fun j lt => ?_⟩
    have lower : j.val < i := by simpa [Fin.lt_def] using lt
    simpa using before j.val lower
  · rintro ⟨passes, before⟩
    refine ⟨passes, m.val, by simp, by simp, fun j lt => ?_⟩
    simpa using before ⟨j, by omega⟩ lt

/-! ## The Block Mark Table (R169) -/

theorem markCount_le (s : State) : markCount s ≤ 16 := by
  have := List.countP_le_length (p := fun m : Option Ident => m.isSome) (l := s.marks.toList)
  simpa only [markCount, Vector.length_toList] using this

/-- R169: the table is full exactly when no entry is free. -/
theorem markCount_full_iff (s : State) : 16 ≤ markCount s ↔ ∀ m, s.marks.get m ≠ none := by
  have all : markCount s = 16 ↔ ∀ x ∈ s.marks.toList, x.isSome = true := by
    simp [markCount]
  have bound := markCount_le s
  rw [show 16 ≤ markCount s ↔ markCount s = 16 by omega, all]
  constructor
  · intro h m none
    have := h _ (Vector.mem_toList_iff.mpr (Vector.getElem_mem m.isLt))
    rw [show s.marks[m.val] = s.marks.get m from rfl, none] at this
    exact absurd this (by decide)
  · intro h x hx
    obtain ⟨j, hj, rfl⟩ := Vector.mem_iff_getElem.mp (Vector.mem_toList_iff.mp hx)
    exact Option.isSome_iff_ne_none.mpr (h ⟨j, hj⟩)

/-- R169: the mark is entered in the free entry of the lowest number. -/
theorem enterMark_eq {s : State} {m : Fin 16} (x : Ident) (free : s.marks.get m = none)
    (lowest : ∀ j, j < m → s.marks.get j ≠ none) :
    enterMark x s = { s with marks := s.marks.set m.val (some x) m.isLt } := by
  have found : allMarks.find? (fun m => (s.marks.get m).isNone) = some m := by
    rw [allMarks, find?_finRange_eq_some_iff]
    exact ⟨by simp [free], fun j lt => Option.isNone_eq_false_iff.mpr (Option.isSome_iff_ne_none.mpr (lowest j lt))⟩
  simp only [enterMark, found]
  rfl

/-- R169: a mark entered is one mark more. -/
theorem markCount_set {s : State} {m : Fin 16} (x : Ident) (free : s.marks.get m = none) :
    markCount { s with marks := s.marks.set m.val (some x) m.isLt } = markCount s + 1 := by
  have entry : s.marks.toList[m.val]'(by simp) = none := by simpa [Vector.get_eq_getElem] using free
  simp only [markCount, Vector.toList_set]
  rw [List.countP_set (by simp), entry]
  simp

/-! ## BLOCK (R167) -/

/-- R167: the card's own record is RESIDENT. -/
theorem ownResident_of_resident {x : Ident} {s : State} {k : SlotNo}
    (resident : findResident (keyOf s.engine.keyShape x) s = some k) (enrolled : (s.slot k).record.state ≠ .empty)
    (own : (s.slot k).record.ident = x) : ownResident x s = some k := by
  simp [ownResident, resident, enrolled, own, Option.filter]

/-- R166: an urgent command that the open, idle unit takes and whose event ends with the tests. -/
theorem exec_urgentBlock_of_ready {s : State} (opened : s.isOpen = true) (ready : s.urgent.state ≠ .busy) :
    exec .urgentBlock s = .next (settle (runBlock (takeUrgent 1 s))) :=
  congrArg Host.Outcome.next (giveUrgent_of_ready opened ready 1 fun t => settle (runBlock t))

theorem runBlock_applied {s : State} {k : SlotNo} (own : ownResident s.urgent.arg s = some k) :
    runBlock (takeUrgent 1 s) =
      finishUrgent .applied (markValue s)
        (touch k (amendRecord k (fun r => { r with state := .blocked }) (takeUrgent 1 s))) := by
  have taken : ownResident (takeUrgent 1 s).urgent.taken (takeUrgent 1 s) = some k := own
  rw [runBlock]
  simp only [taken]
  rfl

theorem runBlock_byMark {s : State} (absent : ownResident s.urgent.arg s = none) :
    runBlock (takeUrgent 1 s) = blockByMark s.urgent.arg (takeUrgent 1 s) := by
  have taken : ownResident (takeUrgent 1 s).urgent.taken (takeUrgent 1 s) = none := absent
  rw [runBlock]
  simp only [taken]
  rfl

/-- Settles O53: the record in the cache, or the Block Mark Table. -/
theorem urgentBlock : Obligations.UrgentBlock := by
  intro s opened ready
  have runs := exec_urgentBlock_of_ready opened ready
  refine ⟨fun k resident enrolled own => ⟨_, runs, ?_⟩, fun absent marked => ⟨_, runs, ?_⟩,
    fun absent unmarked full => ⟨_, runs, ?_⟩, fun m absent unmarked free lowest => ⟨_, runs, ?_⟩⟩
  · rw [runBlock_applied (ownResident_of_resident resident enrolled own), finishUrgent_eq_raised]
    exact ⟨⟨rfl, rfl, rfl, rfl, rfl, rfl, keepsHost_refl s⟩, rfl, rfl, rfl⟩
  · have found : markedIdent s.urgent.arg (takeUrgent 1 s) = true := (markedIdent_iff _ _).mpr marked
    rw [runBlock_byMark absent, blockByMark, if_pos found, finishUrgent_eq_raised]
    exact ⟨⟨rfl, rfl, rfl, rfl, rfl, rfl, keepsHost_refl s⟩, rfl, rfl, rfl⟩
  · have notFound : ¬ markedIdent s.urgent.arg (takeUrgent 1 s) = true := fun found =>
      let ⟨m, mark⟩ := (markedIdent_iff _ _).mp found
      unmarked m mark
    have count : 16 ≤ markCount (takeUrgent 1 s) := (markCount_full_iff s).mpr full
    rw [runBlock_byMark absent, blockByMark, if_neg notFound, if_pos count, finishUrgent_eq_raised]
    exact ⟨⟨rfl, rfl, rfl, rfl, rfl, rfl, keepsHost_refl s⟩, rfl, rfl⟩
  · have notFound : ¬ markedIdent s.urgent.arg (takeUrgent 1 s) = true := fun found =>
      let ⟨m, mark⟩ := (markedIdent_iff _ _).mp found
      unmarked m mark
    have room : ¬ 16 ≤ markCount (takeUrgent 1 s) := fun full => (markCount_full_iff s).mp full m free
    have value : markCount { takeUrgent 1 s with marks := s.marks.set m.val (some s.urgent.arg) m.isLt } =
        markCount s + 1 := markCount_set (s := takeUrgent 1 s) s.urgent.arg free
    have entered : enterMark s.urgent.arg (takeUrgent 1 s) = _ := enterMark_eq s.urgent.arg free lowest
    rw [runBlock_byMark absent, blockByMark, if_neg notFound, if_neg room, entered]
    dsimp only
    rw [finishUrgent_eq_raised, markValue]
    refine ⟨⟨?_, rfl, rfl, rfl, rfl, rfl, keepsHost_refl s⟩, rfl, rfl, rfl⟩
    exact congrArg (fun v => { s.urgent with
      state := .done, command := some 1, result := .marked, value := BitVec.ofNat 16 v, lost := false,
      taken := s.urgent.arg }) value

/-! ## PEEK, FLUSH and RETRY-WRITE (R171 to R173) -/

theorem takeUrgent_eq (code : Word) (s : State) :
    takeUrgent code s =
      { s with
        urgent :=
          { s.urgent with
            state := .busy, command := some code, result := .none, value := 0, lost := false,
            taken := s.urgent.arg } } := rfl

/-- R165: the key that a command takes from the argument. -/
theorem urgentKey_takeUrgent (code : Word) (s : State) :
    urgentKey (takeUrgent code s) = s.urgent.arg.extractLsb' 0 16 :=
  BitVec.setWidth_eq_extractLsb' (by decide)

theorem findResident_takeUrgent (k : Key) (code : Word) (s : State) :
    findResident k (takeUrgent code s) = findResident k s := rfl

/-- R38: a flush-type write at a slot writes that slot, its cells' image onto the request list, and nothing else. -/
theorem flushWrite_keeps (i : SlotNo) (qs : List Requester) (s : State) :
    flushWrite i qs s =
      { s with
        slots := (flushWrite i qs s).slots, port := { s.port with list := s.port.list ++ [writeBackAsked i s] } } := by
  have list := issueWrite_list i s
  have port : (issueWrite i s).port = { s.port with list := (issueWrite i s).port.list } := rfl
  rw [list] at port
  have write : flushWrite i qs s =
      { s with slots := (flushWrite i qs s).slots, port := (issueWrite i s).port } := rfl
  rw [← port]
  exact write

theorem exec_peek_of_ready {s : State} (opened : s.isOpen = true) (ready : s.urgent.state ≠ .busy) :
    exec .peek s = .next (runPeek (takeUrgent 3 s)) :=
  congrArg Host.Outcome.next (giveUrgent_of_ready opened ready 3 runPeek)

theorem exec_urgentFlush_of_ready {s : State} (opened : s.isOpen = true) (ready : s.urgent.state ≠ .busy) :
    exec .urgentFlush s = .next (settle (runFlush (takeUrgent 4 s))) :=
  congrArg Host.Outcome.next (giveUrgent_of_ready opened ready 4 fun t => settle (runFlush t))

theorem exec_retryWrite_of_ready {s : State} (opened : s.isOpen = true) (ready : s.urgent.state ≠ .busy) :
    exec .retryWrite s = .next (settle (runRetry (takeUrgent 5 s))) :=
  congrArg Host.Outcome.next (giveUrgent_of_ready opened ready 5 fun t => settle (runRetry t))

theorem Slot.nothingToWrite_iff (x : Slot) :
    x.nothingToWrite = true ↔ x.writeInFlight = false ∧ x.dirty = false ∧ x.wbFault = false := by
  simp [Slot.nothingToWrite, and_assoc]

theorem placeFlush_idle {i : SlotNo} {s : State} (q : Requester) (h : (s.slot i).writeInFlight = false) :
    placeFlush i q s = flushWrite i [q] s := if_neg (by simp [h])

theorem placeFlush_inFlight {i : SlotNo} {s : State} (q : Requester) (h : (s.slot i).writeInFlight = true) :
    placeFlush i q s = s.modSlot i fun x => { x with nextReqs := x.nextReqs ++ [q] } := if_pos h

/-- R38, R172, R173: what a flush request of the Urgent Command Unit leaves where it issues a write. -/
theorem flushWrite_takeUrgent (code : Word) (k : SlotNo) (s : State) :
    let t := flushWrite k [.urgent] (takeUrgent code s)
    t.urgent = (takeUrgent code s).urgent ∧ t.attn = s.attn ∧
      t.slot k =
        { s.slot k with
          record := { (s.slot k).record with generation := (s.slot k).record.generation + 1 }, dirty := false,
          wbFault := false, writeInFlight := true, writeReqs := [.urgent], nextReqs := [] } ∧
      t.port.list = s.port.list ++ [writeBackAsked k s] ∧ (∀ j, j ≠ k → t.slot j = s.slot j) ∧ t.lines = s.lines ∧
      t.change = s.change ∧ t.recency = s.recency ∧ t.pool = s.pool ∧ keepsHost s t := by
  intro t
  have at_k : t.slot k = _ := flushWrite_slot k [.urgent] (takeUrgent code s)
  have others : ∀ j, j ≠ k → t.slot j = s.slot j := fun j ne => flushWrite_slot_ne k j _ _ ne
  have list : t.port.list = s.port.list ++ [writeBackAsked k s] :=
    congrArg (fun r : State => r.port.list) (flushWrite_keeps k [.urgent] (takeUrgent code s))
  exact ⟨rfl, rfl, at_k, list, others, rfl, rfl, rfl, rfl, keepsHost_refl s⟩

/-- Settles O55: each command at the RESIDENT slot of the argument's key, and without one. -/
theorem peekFlushAndRetry : Obligations.PeekFlushAndRetry := by
  intro s opened ready key
  have peek := exec_peek_of_ready opened ready
  have flush := exec_urgentFlush_of_ready opened ready
  have retry := exec_retryWrite_of_ready opened ready
  have keyOf (code : Word) : urgentKey (takeUrgent code s) = key := urgentKey_takeUrgent code s
  refine ⟨fun k resident => ⟨?_, fun idle => ?_, fun idle dirty => ?_, fun writing => ?_, fun sound => ?_,
    fun fault idle => ?_, fun fault writing => ?_⟩, fun absent => ⟨?_, ?_, ?_⟩⟩
  · rw [peek, runPeek, keyOf, findResident_takeUrgent, resident]
    exact congrArg Host.Outcome.next (finishUrgent_eq_raised _ _ _)
  · rw [flush, runFlush, keyOf, findResident_takeUrgent, resident]
    dsimp only
    rw [if_pos (show ((takeUrgent 4 s).slot k).nothingToWrite = true from idle), finishUrgent_eq_raised]
    rfl
  · have something : ¬ (s.slot k).nothingToWrite = true := by simp [Slot.nothingToWrite_iff, dirty]
    have run : runFlush (takeUrgent 4 s) = flushWrite k [.urgent] (takeUrgent 4 s) := by
      rw [runFlush, keyOf, findResident_takeUrgent, resident]
      exact (if_neg something).trans (placeFlush_idle .urgent idle)
    exact ⟨_, flush.trans (by rw [run]), flushWrite_takeUrgent 4 k s⟩
  · have something : ¬ (s.slot k).nothingToWrite = true := by simp [Slot.nothingToWrite_iff, writing]
    rw [flush, runFlush, keyOf, findResident_takeUrgent, resident]
    exact congrArg (fun t => Host.Outcome.next (settle t))
      ((if_neg something).trans (placeFlush_inFlight .urgent writing))
  · rw [retry, runRetry, keyOf, findResident_takeUrgent, resident]
    have none : ¬ ((takeUrgent 5 s).slot k).wbFault = true := fun fault => Bool.noConfusion (fault.symm.trans sound)
    dsimp only
    rw [if_neg none, finishUrgent_eq_raised]
    rfl
  · have run : runRetry (takeUrgent 5 s) = flushWrite k [.urgent] (takeUrgent 5 s) := by
      rw [runRetry, keyOf, findResident_takeUrgent, resident]
      exact (if_pos fault).trans (placeFlush_idle .urgent idle)
    exact ⟨_, retry.trans (by rw [run]), flushWrite_takeUrgent 5 k s⟩
  · rw [retry, runRetry, keyOf, findResident_takeUrgent, resident]
    exact congrArg (fun t => Host.Outcome.next (settle t))
      ((if_pos fault).trans (placeFlush_inFlight .urgent writing))
  · rw [peek, runPeek, keyOf, findResident_takeUrgent, absent]
    exact congrArg Host.Outcome.next (finishUrgent_eq_raised _ _ _)
  · rw [flush, runFlush, keyOf, findResident_takeUrgent, absent]
    exact congrArg (fun t => Host.Outcome.next (settle t)) (finishUrgent_eq_raised _ _ _)
  · rw [retry, runRetry, keyOf, findResident_takeUrgent, absent]
    exact congrArg (fun t => Host.Outcome.next (settle t)) (finishUrgent_eq_raised _ _ _)

/-! ## Unknown and lost commands (R166) -/

theorem giveUrgent_of_busy {s : State} (opened : s.isOpen = true) (busy : s.urgent.state = .busy) (code : Word)
    (run : State → State) : giveUrgent code run s = loseUrgent s := by
  simp [giveUrgent, opened, busy]

theorem knownUrgent_unknown {code : Word} (h : code = 0 ∨ 5 < code.toNat) : knownUrgent code = false := by
  rcases h with rfl | above
  · rfl
  · simp [knownUrgent]
    omega

/-- R166: every code written to URGENT_CMD gives some command. -/
theorem writeUrgentCmd_eq (code : Word) (s : State) :
    ∃ run, writeUrgentCmd code s = giveUrgent code run s := by
  unfold writeUrgentCmd
  split
  · next one => exact ⟨_, by rw [one]; rfl⟩
  · split
    · next two => exact ⟨_, by rw [two]; rfl⟩
    · split
      · next three => exact ⟨_, by rw [three]; rfl⟩
      · split
        · next four => exact ⟨_, by rw [four]; rfl⟩
        · split
          · next five => exact ⟨_, by rw [five]; rfl⟩
          · exact ⟨_, rfl⟩

theorem writeUrgentCmd_unknown {code : Word} (s : State) (h : code = 0 ∨ 5 < code.toNat) :
    writeUrgentCmd code s = unknownUrgentCmd code s := by
  have one : code ≠ 1 := by rintro rfl; exact absurd h (by decide)
  have two : code ≠ 2 := by rintro rfl; exact absurd h (by decide)
  have three : code ≠ 3 := by rintro rfl; exact absurd h (by decide)
  have four : code ≠ 4 := by rintro rfl; exact absurd h (by decide)
  have five : code ≠ 5 := by rintro rfl; exact absurd h (by decide)
  rw [writeUrgentCmd, if_neg one, if_neg two, if_neg three, if_neg four, if_neg five]

theorem exec_urgentUnknownCode {code : Word} (s : State) (h : code = 0 ∨ 5 < code.toNat) :
    exec (.urgentUnknownCode code) s = .next (unknownUrgentCmd code s) :=
  congrArg Host.Outcome.next (if_neg (by simp [knownUrgent_unknown h]))

/-- Settles O56: unknown codes, lost commands, and the engine states that take none. -/
theorem unknownAndLostUrgentCommands : Obligations.UnknownAndLostUrgentCommands := by
  intro s code
  refine ⟨fun opened ready unknown => ?_, fun _ unknown => ?_, fun opened busy => ?_, fun closed => ?_⟩
  · rw [exec_urgentUnknownCode s unknown, unknownUrgentCmd, giveUrgent_of_ready opened ready, finishUrgent_eq_raised]
    rfl
  · rw [exec_urgentUnknownCode s unknown, ← writeUrgentCmd_unknown s unknown]
    rfl
  · have lost (code : Word) (run : State → State) :=
      congrArg (Host.Outcome.next (φ := Fault) (ρ := Refusal)) (giveUrgent_of_busy opened busy code run)
    obtain ⟨run, write⟩ := writeUrgentCmd_eq code s
    refine ⟨congrArg Host.Outcome.next (if_pos (by simp [opened, busy])), ?_, lost 1 _, lost 2 _, lost 3 _, lost 4 _,
      lost 5 _⟩
    exact (congrArg Host.Outcome.next write).trans (lost code run)
  · have ignored (code : Word) (run : State → State) :=
      congrArg (Host.Outcome.next (φ := Fault) (ρ := Refusal)) (giveUrgent_of_closed code run closed)
    refine ⟨ignored 1 _, ignored 2 _, ignored 3 _, ignored 4 _, ignored 5 _, ?_⟩
    show Host.Outcome.next (if knownUrgent code = true then s else unknownUrgentCmd code s) = _
    rw [unknownUrgentCmd, giveUrgent_of_closed code _ closed, ite_self]

end Sys2Proof.Machine
end

section
/-! What a read of each register shows (R71, R196, R197, Tables 12.7 and 12.8), with the settling of O15. -/

namespace Sys2Proof.Machine

/-! ## Reads of numbered registers -/

/-- A read of a register of the first 256 bytes. -/
theorem regRead_low (s : State) {off : Nat} (h : off < 0x100) : regRead s off = lowRegWord off s := if_pos h

/-- R197: the copies alone answer a read of a copied word. -/
theorem readLowest_eq (r : MultiReg) (s : State) :
    readLowest r s = { s with slave := lowestWord r s, copies := takeCopy r s } := rfl

theorem regRead_range_at (s : State) (n : Fin 16) (j : Fin 4) {off : Nat}
    (place : off = 0x100 + 16 * n.val + 4 * j.val) : regRead s off = rangeRegWord n j.val s := by
  rw [place, regRead_range]

theorem regRead_line_at (s : State) (n : LineNo) (j : Fin 8) {off : Nat}
    (place : off = 0x400 + 32 * n.val + 4 * j.val) : regRead s off = lineRegWord n j.val s := by
  rw [place, regRead_line]

/-- R196: an offset beyond the window's low registers that is assigned to none reads 0. -/
theorem regRead_unassigned (s : State) {off : Nat} (h : 0x0C8 ≤ off)
    (h' : off < 0x100 ∨ (0x280 ≤ off ∧ off < 0x300) ∨ (0x3BC ≤ off ∧ off < 0x400)) : regRead s off = 0 := by
  unfold regRead
  by_cases low : off < 0x100
  · rw [if_pos low]
    unfold lowRegWord
    split
    case h_43 => rfl
    all_goals omega
  · repeat rw [if_neg (by omega)]
    rcases h' with _ | mid | high
    · omega
    · rw [if_pos (by omega)]
    · rw [if_neg (by omega), if_neg (by omega), if_pos (by omega)]

/-! ## The parts of single registers -/

/-- R196: a count shown in a word. -/
theorem zeroExtend_eq_ofNat {w : Nat} (x : BitVec w) : x.zeroExtend 32 = BitVec.ofNat 32 x.toNat :=
  (BitVec.ofNat_toNat 32 x).symm

/-- R181, R196: what a read of ATTN_CAUSE drives and clears. -/
theorem readCause_eq (s : State) :
    readCause s =
      { s with
        slave := regRead s 0x020,
        attn :=
          if regRead s 0x020 = 0 then s.attn
          else { s.attn with pending := s.attn.pending &&& ~~~(1#12 <<< ((regRead s 0x020).toNat - 1)) } } := by
  have shown : regRead s 0x020 = BitVec.ofNat 32 ((s.attn.cause.map Source.code).getD 0) := rfl
  cases cause : s.attn.cause with
  | none =>
    rw [readCause_none cause, shown, cause]
    rfl
  | some x =>
    have bounds := x.code_bounds
    have value : (BitVec.ofNat 32 x.code).toNat = x.code := Nat.mod_eq_of_lt (by omega)
    have nonzero : BitVec.ofNat 32 x.code ≠ 0 := fun zero => by
      have := congrArg BitVec.toNat zero
      rw [value] at this
      exact absurd this (by simp; omega)
    rw [readCause_some cause, shown, cause]
    simp only [Option.map_some, Option.getD_some, if_neg nonzero, value]

/-- Table 12.8: URGENT_STATUS shows the code of the last command taken, or 0. -/
theorem commandCode_eq (c : Option Word) :
    (c.getD 0).toNat % 256 = match c with | some code => code.toNat % 256 | none => 0 := by
  cases c <;> rfl

/-- Table 12.7: the kind of the last fault, or 0. -/
theorem faultKindCode_eq (k : Option OpKind) :
    (k.map OpKind.code).getD 0 =
      match k with
      | none => 0
      | some .fetch => 1
      | some .writeBack => 2
      | some .blockRead => 3
      | some .statusWrite => 4 := by
  rcases k with _ | k
  · rfl
  · cases k <;> rfl

theorem getD_toList {α : Type} {n : Nat} (v : Vector α n) (i : Fin n) (d : α) : v.toList.getD i.val d = v.get i := by
  have : i.val < v.toList.length := by simp
  rw [List.getD_eq_getElem _ d this, Vector.getElem_toList]
  rfl

/-- R133: the values of the item that the tariff view selects, in order. -/
theorem viewValue_eq (t : Tariff) (n : Fin 8) :
    let bank : Bank := if t.view.bankB = true then t.bankB else t.bankA
    viewValue t n =
      (if t.view.row = true then (bank.fares.get t.view.number).toList
        else
          let e := bank.classes.get t.view.number
          [e.minEntry, e.overdraft, e.percent, e.unmatched, e.passback, e.burst, e.refill, e.maxTrip]).getD n.val 0 := by
  intro bank
  unfold viewValue
  dsimp only
  split
  · rw [getD_toList]
    rfl
  · fin_cases n <;> rfl

/-- R135: the low identifier bits of a mark. -/
theorem markWord_some (x : Ident) : markWord (some x) = BitVec.ofNat 32 (1 + x.toNat % 2 ^ 24 * 2 ^ 8) := by
  rw [markWord, BitVec.extractLsb'_toNat, Nat.shiftRight_zero]
  rfl

/-- R95: the last sequence in LINE_STATUS, or its absence. -/
theorem lastSeqField_eq (q : Option Byte) :
    flag q.isNone 3 + field (q.getD 0).toNat 8 = match q with | none => 2 ^ 3 | some q => q.toNat * 2 ^ 8 := by
  cases q with
  | none => rfl
  | some q => simp [flag, field]

/-- Settles O15: the reads of one register after another. -/
theorem readsShowTheRegisters : Obligations.ReadsShowTheRegisters := by
  refine ⟨fun s off lane => ⟨rfl, oddParity_odd (regRead s off) lane⟩, fun s => ?_, fun s => ?_, fun s => ?_⟩
  · refine ⟨fun r => rfl, ⟨_, rfl, rfl, rfl, rfl⟩, ⟨_, rfl, rfl⟩, ⟨_, rfl, fun j => ?_⟩, ⟨_, rfl, rfl, rfl⟩, fun n => ?_,
      fun m x mark => ?_, fun c x used => ?_⟩
    · fin_cases j <;> rfl
    · have copy : (readLowest (.rangeRule n) s).copies.rangeRule.get n =
          #v[identLow (s.ranges.get n).base, identHigh (s.ranges.get n).base, 0] := get_set_eq _ n _
      refine ⟨_, rfl, ?_, ?_, ?_⟩
      · exact (regRead_range_at _ n 1 (by omega)).trans (congrArg (·[0]) copy)
      · exact (regRead_range_at _ n 2 (by omega)).trans (congrArg (·[1]) copy)
      · exact (regRead_range_at _ n 3 (by omega)).trans (congrArg (·[2]) copy)
    · refine ⟨_, rfl, (regRead_mark _ m).2.trans ((get_set_eq _ m _).trans ?_)⟩
      rw [mark]
      rfl
    · refine ⟨_, rfl, (regRead_tapq _ c).2.trans ((get_set_eq _ c _).trans ?_)⟩
      rw [used]
      rfl
  · intro shows bit
    refine ⟨rfl, rfl, rfl, rfl, regRead_attnPending s, rfl, congrArg Host.Outcome.next (readCause_eq s), rfl, rfl, rfl,
      ?_, rfl, rfl, ?_, rfl, zeroExtend_eq_ofNat s.counts.misses, zeroExtend_eq_ofNat s.counts.cleanEvictions,
      zeroExtend_eq_ofNat s.counts.dirtyEvictions, zeroExtend_eq_ofNat s.counts.rescues, rfl, rfl, rfl, rfl, ?_,
      zeroExtend_eq_ofNat s.port.faults, zeroExtend_eq_ofNat s.port.late, rfl, rfl, rfl, rfl, rfl,
      zeroExtend_eq_ofNat s.lineEvents, fun off none => ?_, fun off => regRead_unassigned s⟩
    · show blockAligned s.change.last ||| BitVec.ofNat 32 (flag s.change.lastValid 0) = _
      cases s.change.lastValid <;> rfl
    · show urgentStatusWord s.urgent = _
      rw [urgentStatusWord, commandCode_eq]
      rfl
    · show lastFaultWord s.port.lastFault = _
      rw [lastFaultWord, faultKindCode_eq]
      rfl
    · simp only [List.mem_cons, List.not_mem_nil, or_false] at none
      rcases none with rfl | rfl | rfl | rfl | rfl | rfl | rfl | rfl <;> rfl
  · intro bit bank item
    have value (n : Fin 8) : viewValue s.tariff n = item.getD n.val 0 := viewValue_eq s.tariff n
    refine ⟨fun j => ?_, rfl, fun n => ?_, fun m => ?_, regRead_peek s 0, fun j small => ?_, fun n => ?_, fun c => ?_⟩
    · rw [viewWord, value, value]
    · exact regRead_range_at s n 0 rfl
    · rw [(regRead_mark s m).1]
      show markWord (s.marks.get m) = _
      cases s.marks.get m with
      | none => rfl
      | some x => exact markWord_some x
    · have word := regRead_peek s ⟨j + 1, by omega⟩
      rw [show 0x304 + 4 * j = 0x300 + 4 * (j + 1) by omega]
      exact word
    · refine ⟨regRead_line_at s n 0 rfl, (regRead_line_at s n 1 (by omega)).trans ?_, regRead_line_at s n 2 (by omega),
        regRead_line_at s n 3 (by omega), regRead_line_at s n 4 (by omega), regRead_line_at s n 5 (by omega),
        regRead_line_at s n 6 (by omega), regRead_line_at s n 7 (by omega)⟩
      show lineStatusWord (s.line n) = _
      rw [lineStatusWord, Nat.add_assoc, Nat.add_assoc, ← Nat.add_assoc (flag _ _), lastSeqField_eq, ← Nat.add_assoc]
      cases (s.line n).verdict <;> rfl
    · rw [(regRead_tapq s c).1]
      show tapWord (s.ctx c) = _
      cases s.ctx c <;> rfl

end Sys2Proof.Machine
end

section
/-! The gate lines (chapter 5): frames and their bytes, replies, and the judgement of a TAP, with the settling of O25, O26,
O19 and O20. -/

namespace Sys2Proof.Machine

/-! ## One line changed -/

/-- A change of one line, as one state. -/
theorem modLine_eq (s : State) (n : LineNo) (f : Line → Line) :
    s.modLine n f = { s with lines := s.lines.set n.val (f (s.line n)) n.isLt } := rfl

/-! ## Frames (R75 to R78) -/

theorem setFrame_line (n : LineNo) (f : Frame) (s : State) : (setFrame n f s).line n = { s.line n with frame := f } :=
  State.line_modLine_same s n _

/-- R77, R78: select rises at a line that takes part in the frame. -/
theorem riseSelect_of_receives {n : LineNo} {s : State} (f : State → State) (h : receives n s) :
    riseSelect n f s = f (setFrame n .quiet s) := by
  obtain ⟨enabled, frame⟩ := h
  unfold riseSelect
  rcases frame with quiet | receiving
  · simp only [quiet]
    exact if_neg enabled
  · simp only [receiving]
    exact if_neg enabled

theorem riseSelect_of_ignored {n : LineNo} {s : State} (f : State → State) (h : (s.line n).frame = .ignored) :
    riseSelect n f s = setFrame n .quiet s := by
  simp only [riseSelect, h]

theorem cutShort_of_receives {n : LineNo} {s : State} (h : receives n s) :
    cutShort n s = s.modLine n fun l => { l with frame := .quiet, frameErrors := satInc16 l.frameErrors } := by
  have rise : cutShort n s = riseSelect n (countFrameError n) s := by
    unfold cutShort
    rcases h.2 with quiet | receiving
    · simp only [quiet]
    · simp only [receiving]
  rw [rise, riseSelect_of_receives _ h, countFrameError, setFrame, modLine_modLine]

theorem cutShort_of_replying {n : LineNo} {s : State} {k : Bool} {reply : List Byte} {carried : Bool}
    (h : (s.line n).frame = .replying k reply carried) :
    cutShort n s = s.modLine n fun l => { l with frame := .quiet, frameErrors := satInc16 l.frameErrors } := by
  simp only [cutShort, h]
  rw [countFrameError, setFrame, modLine_modLine]

theorem cutShort_of_ignored {n : LineNo} {s : State} (h : (s.line n).frame = .ignored) :
    cutShort n s = setFrame n .quiet s := by
  simp only [cutShort, h]
  exact riseSelect_of_ignored _ h

/-! ## Replies (R85 to R87) -/

theorem fixReply_of_receives {n : LineNo} {s : State} (isRepeat : Bool) (h : receives n s) :
    fixReply isRepeat n s =
      setFrame n (.replying isRepeat (replyBytes (s.line n) isRepeat s.running) ((s.line n).carries isRepeat)) s := by
  unfold fixReply
  rcases h.2 with quiet | receiving
  · simp only [quiet]
    exact if_neg h.1
  · simp only [receiving]
    exact if_neg h.1

theorem Line.carries_poll (l : Line) : l.carries false = (l.state == .ready) := by
  unfold Line.carries
  cases l.state <;> rfl

theorem Line.carries_repeat (l : Line) : l.carries true = (l.state == .ready || l.state == .taken) := by
  unfold Line.carries
  cases l.state <;> rfl

theorem Line.carries_of_ready {l : Line} (isRepeat : Bool) (h : l.state = .ready) : l.carries isRepeat = true := by
  simp only [Line.carries, h]

/-- R85, R86: a complete POLL or REPEAT in one event: a READY line becomes TAKEN. -/
theorem finishReply_of_receives {n : LineNo} {s : State} (isRepeat : Bool) (h : receives n s) :
    finishReply isRepeat n s =
      s.modLine n fun l => { l with frame := .quiet, state := if l.state = .ready then .taken else l.state } := by
  have rise : finishReply isRepeat n s =
      riseSelect n (fun r => verdictRead n ((r.line n).carries isRepeat) r) s := by
    unfold finishReply
    rcases h.2 with quiet | receiving
    · simp only [quiet]
    · simp only [receiving]
  rw [rise, riseSelect_of_receives _ h, verdictRead, setFrame, modLine_modLine, State.line_modLine_same, modLine_eq,
    modLine_eq]
  by_cases ready : (s.line n).state = .ready
  · simp only [ready, Line.carries, and_self, if_true]
  · simp only [ready, false_and, if_false]

/-- R85, R86: the complete frame of a fixed reply. -/
theorem finishReply_of_replying {n : LineNo} {s : State} {k : Bool} {reply : List Byte} {carried : Bool}
    (h : (s.line n).frame = .replying k reply carried) :
    finishReply k n s =
      s.modLine n fun l =>
        { l with frame := .quiet, state := if l.state = .ready ∧ carried = true then .taken else l.state } := by
  simp only [finishReply, h, beq_self_eq_true, if_true]
  rw [verdictRead, setFrame, modLine_modLine, modLine_eq, modLine_eq]
  by_cases read : (s.line n).state = .ready ∧ carried = true
  · simp only [read, and_self, if_true]
  · simp only [read, if_false]

/-- R87: the sixteen bytes of a reply that carries the verdict held. -/
theorem replyBytes_carrying {l : Line} {v : Verdict} (isRepeat running : Bool) (carries : l.carries isRepeat = true)
    (held : l.verdict = some v) :
    replyBytes l isRepeat running = lineStatusByte l isRepeat running :: encodeVerdict v := by
  simp only [replyBytes, replyRecord, carries, held]

theorem replyBytes_plain {l : Line} (isRepeat running : Bool) (carries : l.carries isRepeat = false) :
    replyBytes l isRepeat running = lineStatusByte l isRepeat running :: List.replicate 15 0 := by
  simp only [replyBytes, replyRecord, carries, noVerdict]

/-- Settles O25: the reply's bytes by line state, the codes of a verdict record, and the two frames with a reply. -/
theorem replies : Obligations.Replies := by
  refine ⟨fun s n h => ⟨?_, ?_, ?_, ?_, fun v k ready held => ?_, fun k state => ?_, fun k state => ?_, fun state => ?_,
    fun v state held => ?_⟩, fun v => ⟨rfl, rfl, rfl⟩, fun s n k reply carried frame => ⟨?_, ?_⟩⟩
  · show Host.Outcome.next (fixReply false n s) = _
    rw [fixReply_of_receives false h, Line.carries_poll]
    rfl
  · show Host.Outcome.next (fixReply true n s) = _
    rw [fixReply_of_receives true h, Line.carries_repeat]
    rfl
  · exact congrArg Host.Outcome.next (finishReply_of_receives false h)
  · exact congrArg Host.Outcome.next
      ((finishReply_of_receives true h).trans (finishReply_of_receives false h).symm)
  · have carries : (s.line n).carries k = true := Line.carries_of_ready k ready
    rw [replyBytes_carrying k s.running carries held, lineStatusByte, carries, ready]
    cases s.running <;> rfl
  · have carries : (s.line n).carries k = false := by simp only [Line.carries, state]
    rw [replyBytes_plain k s.running carries, lineStatusByte, carries, state]
    cases s.running <;> rfl
  · have carries : (s.line n).carries k = false := by simp only [Line.carries, state]
    rw [replyBytes_plain k s.running carries, lineStatusByte, carries, state]
    cases s.running <;> rfl
  · have carries : (s.line n).carries false = false := by simp only [Line.carries, state]
    rw [replyBytes_plain false s.running carries, lineStatusByte, carries, state]
    cases s.running <;> rfl
  · have carries : (s.line n).carries true = true := by simp only [Line.carries, state]
    rw [replyBytes_carrying true s.running carries held, lineStatusByte, carries, state]
    cases s.running <;> rfl
  · cases k with
    | true => exact congrArg Host.Outcome.next (finishReply_of_replying frame)
    | false => exact congrArg Host.Outcome.next (finishReply_of_replying frame)
  · exact congrArg Host.Outcome.next (cutShort_of_replying frame)

/-! ## The bytes of a frame (R76, R195) -/

/-- Two fields of a word that stand side by side are one field. -/
theorem extract_append {w : Nat} (x : BitVec w) {start n m k : Nat} (h : k = start + n) :
    x.extractLsb' k m ++ x.extractLsb' start n = x.extractLsb' start (m + n) := by
  subst h
  ext i hi
  simp only [BitVec.getElem_append, BitVec.getElem_extractLsb']
  split
  · rfl
  · congr 1
    omega

theorem extract_all {w : Nat} (x : BitVec w) : x.extractLsb' 0 w = x := by
  ext i hi
  simp

/-- Table 12.5: the issuer's two bytes. -/
theorem issuer_bytes (x : BitVec 16) : x.extractLsb' 8 8 ++ x.extractLsb' 0 8 = x :=
  (extract_append x rfl).trans (extract_all x)

/-- Table 12.5: the serial's five bytes. -/
theorem serial_bytes (x : BitVec 40) :
    x.extractLsb' 32 8 ++ x.extractLsb' 24 8 ++ x.extractLsb' 16 8 ++ x.extractLsb' 8 8 ++ x.extractLsb' 0 8 = x := by
  rw [extract_append x (show 32 = 24 + 8 from rfl), extract_append x (show 24 = 16 + 8 from rfl),
    extract_append x (show 16 = 8 + 8 from rfl), extract_append x (show 8 = 0 + 8 from rfl)]
  exact extract_all x

/-- R77, R195: a frame whose opcode names a kind, by its length. -/
theorem frameCommand_known (n : LineNo) {o : Byte} {kind : FrameKind} (rest : List Byte)
    (known : frameKindOf o = some kind) :
    frameCommand n (o :: rest) =
      if rest.length + 1 < kind.length then .frameCutShort n
      else
        match (generalizing := false) kind with
        | .tap => tapOfBytes n (o :: rest)
        | .poll => .poll n
        | .again => .repeatFrame n := by
  simp only [frameCommand, known, List.length_cons] <;> rfl

/-- R76: a TAP frame of eleven bytes or more. -/
theorem frameCommand_tap (n : LineNo) (q d : Byte) (iss : BitVec 16) (ser : BitVec 40) (chk : Byte)
    (rest : List Byte) : frameCommand n (tapBytes q d iss ser ++ chk :: rest) = .tap n q d iss ser chk := by
  have bytes : tapOfBytes n (tapBytes q d iss ser ++ chk :: rest) = .tap n q d iss ser chk := by
    show Instr.tap n q d (iss.extractLsb' 8 8 ++ iss.extractLsb' 0 8)
      (ser.extractLsb' 32 8 ++ ser.extractLsb' 24 8 ++ ser.extractLsb' 16 8 ++ ser.extractLsb' 8 8 ++
        ser.extractLsb' 0 8) chk = _
    rw [issuer_bytes, serial_bytes]
  rw [← bytes]
  exact (frameCommand_known n _ (kind := .tap) rfl).trans (if_neg (by simp [FrameKind.length]))

theorem frameKindOf_unknown {o : Byte} (tap : o ≠ 0x3C) (poll : o ≠ 0x5A) (again : o ≠ 0x69) : frameKindOf o = none := by
  rw [frameKindOf, if_neg tap, if_neg poll, if_neg again]

/-- R76, R77: the commands of a frame with a complete opcode. -/
theorem frameEvents_cons (n : LineNo) {wave : List LineSample} {o : Byte} {rest : List Byte}
    (bytes : bitsBytes (sampledBits false wave) = o :: rest) :
    frameEvents n wave = .frameStart n :: ((opcodeCommand n o).toList ++ [frameCommand n (o :: rest)]) := by
  simp only [frameEvents, bytes, List.head?_cons, Option.bind_some]

/-- R76, R85, R86: the bytes of a reply as they are driven. -/
theorem byteAt_eq (l : List Byte) (k : Nat) : byteAt l k = if h : k < l.length then l[k] else 0 := by
  unfold byteAt
  split
  · next h => exact List.getD_eq_getElem l 0 h
  · next h => exact List.getD_eq_default l 0 (Nat.le_of_not_lt h)

/-- Settles O26: the wires, the bytes and the frames without a reply. -/
theorem framesAndTheirBytes : Obligations.FramesAndTheirBytes := by
  refine ⟨fun n q d iss ser chk rest => ⟨rfl, frameCommand_tap n q d iss ser chk rest, fun short => ?_,
      fun short => ⟨?_, ?_⟩, fun long => ⟨?_, ?_⟩, rfl, fun o tap poll again => ?_⟩,
    opcodeCommand_eq, fun b => rfl, fun bits => ⟨bitsBytes_length bits, bitsBytes_bit bits⟩,
    fun clock x wave => ⟨rfl, sampledBits_cons clock x wave⟩, fun n wave => ?_, fun s n wave placed h => ?_,
    fun s n => ⟨fun k off => ?_, fun k enabled low => ?_, fun again reply carried enabled frame => ?_, fun quiet => ?_,
      fun h => ⟨?_, fun o tap poll again => ?_, ?_⟩, fun ignored => ⟨?_, ?_⟩⟩⟩
  · rw [frameCommand_known n rest (kind := .tap) rfl, if_pos (by simp only [FrameKind.length]; omega)]
  · rw [frameCommand_known n rest (kind := .poll) rfl, if_pos (by simp only [FrameKind.length]; omega)]
  · rw [frameCommand_known n rest (kind := .again) rfl, if_pos (by simp only [FrameKind.length]; omega)]
  · rw [frameCommand_known n rest (kind := .poll) rfl, if_neg (by simp only [FrameKind.length]; omega)]
  · rw [frameCommand_known n rest (kind := .again) rfl, if_neg (by simp only [FrameKind.length]; omega)]
  · simp only [frameCommand, frameKindOf_unknown tap poll again]
  · intro bytes
    refine ⟨fun o rest first kind => ?_, fun notPoll notAgain => ?_⟩
    · rw [frameEvents_cons n first, opcodeCommand_eq, first]
      rcases kind with rfl | rfl <;> rfl
    · cases whole : bytes with
      | nil =>
        rw [frameEvents_eq, show bitsBytes (sampledBits false wave) = [] from whole]
        rfl
      | cons o rest =>
        rw [whole] at notPoll notAgain
        have poll : o ≠ 0x5A := fun e => notPoll (congrArg some e)
        have again : o ≠ 0x69 := fun e => notAgain (congrArg some e)
        rw [frameEvents_cons n whole, opcodeCommand_eq, if_neg poll, if_neg again]
        rfl
  · rw [dataOut, h]
    rfl
  · rcases off with disabled | quiet
    · simp only [lineDrives, disabled, if_true]
    · simp only [lineDrives, quiet, ite_self]
  · rcases low with receiving | ignored
    · simp only [lineDrives, receiving, if_neg enabled]
    · simp only [lineDrives, ignored, if_neg enabled]
  · refine ⟨(lineDrives_replying n s again reply carried enabled frame 0).1, fun k => ?_⟩
    rw [(lineDrives_replying n s again reply carried enabled frame k).2, byteAt_eq]
  · show Host.Outcome.next (fallSelect n s) = _
    simp only [fallSelect, quiet]
    rfl
  · exact congrArg Host.Outcome.next (cutShort_of_receives h)
  · show Host.Outcome.next (if (frameKindOf o).isSome = true then s else riseSelect n (countFrameError n) s) =
      .next (cutShort n s)
    rw [frameKindOf_unknown tap poll again, if_neg (by decide), riseSelect_of_receives _ h, cutShort_of_receives h,
      countFrameError, setFrame, modLine_modLine]
  · exact congrArg Host.Outcome.next (riseSelect_of_receives id h)
  · exact congrArg Host.Outcome.next (cutShort_of_ignored ignored)
  · exact congrArg Host.Outcome.next ((riseSelect_of_ignored id ignored).trans (cutShort_of_ignored ignored).symm)

end Sys2Proof.Machine
end

section
/-! The judgement of a TAP (R79 to R83), with the settling of O19 and O20. -/

namespace Sys2Proof.Machine

/-! ## Frames judged -/

theorem tapDirection_bad {q d : Byte} {iss : BitVec 16} {ser : BitVec 40} {chk : Byte}
    (h : chk ≠ xorBytes (tapBytes q d iss ser) ∨ (d ≠ 1 ∧ d ≠ 2)) : tapDirection q d iss ser chk = none := by
  rcases h with check | ⟨one, two⟩
  · exact if_neg check
  · simp only [tapDirection, directionOf, if_neg one, if_neg two, ite_self]

theorem tapDirection_good {q db : Byte} {iss : BitVec 16} {ser : BitVec 40} {chk : Byte} {d : Direction}
    (h : tapFrameGood q db iss ser chk d) : tapDirection q db iss ser chk = some d := (if_pos h.1).trans h.2

/-- R79: a bad TAP at a line that receives it. -/
theorem exec_tap_bad {n : LineNo} {s : State} {q d : Byte} {iss : BitVec 16} {ser : BitVec 40} {chk : Byte}
    (h : receives n s) (bad : tapDirection q d iss ser chk = none) :
    exec (.tap n q d iss ser chk) s = .next (badTap n q (setFrame n .quiet s)) := by
  show Host.Outcome.next (riseSelect n (judgeTap n q d iss ser chk) s) = _
  rw [riseSelect_of_receives _ h, judgeTap, bad]

/-- R80 to R83: a good TAP at a line that receives it. -/
theorem exec_tap_good {n : LineNo} {s : State} {q db : Byte} {iss : BitVec 16} {ser : BitVec 40} {chk : Byte}
    {d : Direction} (h : receives n s) (good : tapDirection q db iss ser chk = some d) :
    exec (.tap n q db iss ser chk) s = .next (settle (goodTap n q d (mkIdent iss ser) (setFrame n .quiet s))) := by
  show Host.Outcome.next (riseSelect n (judgeTap n q db iss ser chk) s) = _
  rw [riseSelect_of_receives _ h, judgeTap, good]

/-! ## Overruns (R82, R94) -/

theorem flagLineEvent_eq (n : LineNo) (s : State) :
    flagLineEvent n s =
      { s with lineEvents := s.lineEvents ||| BitVec.twoPow 16 n.val, attn := raised .lineEvent s } := by
  rw [flagLineEvent, raise_eq_raised]
  rfl

theorem overrun_eq (n : LineNo) (s : State) :
    overrun n s =
      { s with
        lines := s.lines.set n.val { s.line n with overruns := satInc16 (s.line n).overruns } n.isLt,
        lineEvents := s.lineEvents ||| BitVec.twoPow 16 n.val, attn := raised .lineEvent s } := by
  rw [overrun, flagLineEvent_eq]
  rfl

/-- The line holds an unread verdict that was made from a tap (R82). -/
def Line.unread (l : Line) : Bool := l.state == .ready && !l.holdsFrameError

theorem discardUnread_of_unread {n : LineNo} {s : State} (h : (s.line n).unread = true) :
    discardUnread n s = overrun n s := if_pos h

theorem discardUnread_of_read {n : LineNo} {s : State} (h : (s.line n).unread = false) : discardUnread n s = s :=
  if_neg (by simpa [Line.unread] using h)

/-! ## Bad TAPs (R79) -/

/-- R79: what a bad TAP makes of a line that is not IN_FLIGHT, the overrun apart. -/
def Line.frameError (l : Line) (v : Verdict) (q : Byte) : Line :=
  { l with frameErrors := satInc16 l.frameErrors, verdict := some v, state := .ready, lastSeq := some q }

theorem badTap_inFlight {n : LineNo} {s : State} (q : Byte) (h : (s.line n).state = .inFlight) :
    badTap n q s = countFrameError n s := if_pos (by simp [h])

theorem badTap_read {n : LineNo} {s : State} (q : Byte) (h : (s.line n).state ≠ .inFlight)
    (read : (s.line n).unread = false) :
    badTap n q s = s.modLine n fun l => l.frameError (plainVerdict q .refuse .frameError s) q := by
  have counted : ((countFrameError n s).line n).unread = false := by
    rw [countFrameError, State.line_modLine_same]
    exact read
  rw [badTap, if_neg (by simpa using h), discardUnread_of_read counted, holdFrameError, holdVerdict, countFrameError,
    modLine_modLine, modLine_modLine]
  rfl

theorem badTap_unread {n : LineNo} {s : State} (q : Byte) (unread : (s.line n).unread = true) :
    badTap n q s =
      flagLineEvent n
        (s.modLine n fun l =>
          { l.frameError (plainVerdict q .refuse .frameError s) q with overruns := satInc16 l.overruns }) := by
  have ready : (s.line n).state = .ready := by
    simp only [Line.unread, Bool.and_eq_true, beq_iff_eq] at unread
    exact unread.1
  have counted : ((countFrameError n s).line n).unread = true := by
    rw [countFrameError, State.line_modLine_same]
    exact unread
  rw [badTap, if_neg (by simp [ready]), discardUnread_of_unread counted, overrun_eq, flagLineEvent_eq]
  simp only [holdFrameError, holdVerdict, countFrameError, State.modLine, State.line, State.setLines, get_set_eq,
    set_set_eq]
  rfl

/-- Settles O19: the line's new value in each case, as one state. -/
theorem badAndEchoedTaps : Obligations.BadAndEchoedTaps := by
  refine ⟨fun s n q d iss ser chk h bad => ?_, fun s n q db iss ser chk d h good same held => ?_⟩
  · have runs := exec_tap_bad h (tapDirection_bad bad)
    have line := setFrame_line n .quiet s
    refine ⟨fun inFlight => ?_, fun state => ?_, fun ready tapMade => ?_⟩
    · rw [runs, badTap_inFlight q (by rw [line]; exact inFlight), countFrameError, setFrame, modLine_modLine]
      rfl
    · have other : (s.line n).state ≠ .inFlight := by
        rcases state with idle | taken | ⟨ready, _⟩
        · simp [idle]
        · simp [taken]
        · simp [ready]
      have read : (s.line n).unread = false := by
        rcases state with idle | taken | ⟨ready, error⟩
        · simp [Line.unread, idle]
        · simp [Line.unread, taken]
        · simp [Line.unread, error]
      rw [runs, badTap_read q (by rw [line]; exact other) (by rw [line]; exact read), setFrame, modLine_modLine]
      rfl
    · have unread : (s.line n).unread = true := by simp [Line.unread, ready, tapMade]
      rw [runs, badTap_unread q (by rw [line]; exact unread), flagLineEvent_eq, setFrame, modLine_modLine, modLine_eq]
      simp only [Line.frameError, ready]
      rfl
  · have isEcho : ((setFrame n .quiet s).line n).isEcho q = true := by
      rw [setFrame_line]
      show ((s.line n).lastSeq == some q && !(s.line n).holdsFrameError) = true
      simp [same, held]
    rw [exec_tap_good h (tapDirection_good good), goodTap]
    dsimp only
    rw [if_pos isEcho, echo, setFrame, modLine_modLine, modLine_eq]
    by_cases taken : (s.line n).state = .taken
    · simp only [taken, if_true]
    · simp only [taken, if_false]

/-! ## The taking of a TAP does not depend on which state the line leaves (R83) -/

/-- R83: a TAP is taken alike from a line READY, TAKEN or IDLE. -/
theorem takeTap_modState (n : LineNo) (q : Byte) (d : Direction) (x : Ident) (y : LineState) (s : State) :
    takeTap n q d x (s.modLine n fun l => { l with state := y }) = takeTap n q d x s := by
  have taken : (s.modLine n fun l => { l with state := y }).modLine n
        (fun l => { l with verdict := none, lastSeq := some q, tapsTaken := satInc16 l.tapsTaken }) =
      (s.modLine n fun l => { l with verdict := none, lastSeq := some q, tapsTaken := satInc16 l.tapsTaken }).modLine n
        fun l => { l with state := y } := by
    rw [modLine_modLine, modLine_modLine]
  simp only [takeTap, taken]
  generalize (s.modLine n fun l => { l with verdict := none, lastSeq := some q, tapsTaken := satInc16 l.tapsTaken }) = r
  have busy (why : Reason) : answerBusy n q why (r.modLine n fun l => { l with state := y }) = answerBusy n q why r := by
    simp only [answerBusy, holdVerdict, modLine_modLine]
    rfl
  have context : tapContext n q d x (r.modLine n fun l => { l with state := y }) = tapContext n q d x r := by
    simp only [tapContext, State.line_modLine_same]
    rfl
  have timer : deadlineTimer n (r.modLine n fun l => { l with state := y }) = deadlineTimer n r := by
    simp only [deadlineTimer, State.line_modLine_same]
    rfl
  simp only [busy, context, timer, modLine_modLine]
  rfl

/-- R81: a new TAP on an IN_FLIGHT line is an overrun. -/
theorem goodTap_inFlight {n : LineNo} {s : State} {q : Byte} (d : Direction) (x : Ident)
    (fresh : (s.line n).lastSeq ≠ some q) (h : (s.line n).state = .inFlight) : goodTap n q d x s = overrun n s := by
  have notEcho : ¬ (s.line n).isEcho q = true := by simp [Line.isEcho, fresh]
  rw [goodTap, if_neg notEcho, if_pos (by simp [h])]

/-- R82, R83: any other good TAP that is no echo is taken, once an unread verdict is discarded. -/
theorem goodTap_taken {n : LineNo} {s : State} {q : Byte} (d : Direction) (x : Ident)
    (notEcho : (s.line n).isEcho q = false) (h : (s.line n).state ≠ .inFlight) :
    goodTap n q d x s = takeTap n q d x (discardUnread n s) := by
  rw [goodTap, if_neg (by simp [notEcho]), if_neg (by simpa using h)]

/-- R82: the state in which a line's unread verdict counts as taken and its discarding as an overrun. -/
def overrunTaken (n : LineNo) (s : State) : State :=
  { s with
    lines := s.lines.set n.val { s.line n with state := .taken, overruns := satInc16 (s.line n).overruns } n.isLt,
    lineEvents := s.lineEvents ||| BitVec.twoPow 16 n.val, attn := raised .lineEvent s }

theorem overrunTaken_eq (n : LineNo) (s : State) :
    overrunTaken n s = (overrun n s).modLine n fun l => { l with state := .taken } := by
  rw [overrun_eq, overrunTaken]
  simp only [State.modLine, State.line, State.setLines, get_set_eq, set_set_eq]

theorem overrunTaken_line (n : LineNo) (s : State) :
    (overrunTaken n s).line n = { s.line n with state := .taken, overruns := satInc16 (s.line n).overruns } :=
  get_set_eq _ n _

theorem setFrame_overrunTaken (n : LineNo) (f : Frame) (s : State) :
    setFrame n f (overrunTaken n s) = overrunTaken n (setFrame n f s) := by
  simp only [overrunTaken, setFrame, State.modLine, State.line, State.setLines, get_set_eq, set_set_eq]
  rfl

/-- R79, R82: a TAP at a line READY with an unread verdict acts as if that verdict had been taken. -/
theorem exec_tap_unread {n : LineNo} {s : State} {q : Byte} (db : Byte) (iss : BitVec 16) (ser : BitVec 40)
    (chk : Byte) (h : receives n s) (unread : (s.line n).unread = true) (fresh : (s.line n).lastSeq ≠ some q) :
    exec (.tap n q db iss ser chk) s = exec (.tap n q db iss ser chk) (overrunTaken n s) := by
  have receives' : receives n (overrunTaken n s) := by
    rw [receives, overrunTaken_line]
    exact ⟨nofun, h.2⟩
  have ready : (s.line n).state = .ready := by
    simp only [Line.unread, Bool.and_eq_true, beq_iff_eq] at unread
    exact unread.1
  have line : (setFrame n .quiet s).line n = { s.line n with frame := .quiet } := setFrame_line n .quiet s
  have line' := overrunTaken_line n (setFrame n .quiet s)
  have unread' : ((setFrame n .quiet s).line n).unread = true := by rw [line]; exact unread
  have read : ((overrunTaken n (setFrame n .quiet s)).line n).unread = false := by rw [line']; rfl
  cases direction : tapDirection q db iss ser chk with
  | none =>
    rw [exec_tap_bad h direction, exec_tap_bad receives' direction, setFrame_overrunTaken, badTap_unread q unread',
      badTap_read q (by rw [line']; exact nofun) read, flagLineEvent_eq]
    simp only [overrunTaken, Line.frameError, State.modLine, State.line, State.setLines, get_set_eq, set_set_eq]
    rfl
  | some d =>
    have fresh' : ((setFrame n .quiet s).line n).isEcho q = false := by rw [line]; simp [Line.isEcho, fresh]
    have fresh'' : ((overrunTaken n (setFrame n .quiet s)).line n).isEcho q = false := by
      rw [line', line]
      simp [Line.isEcho, fresh]
    rw [exec_tap_good h direction, exec_tap_good receives' direction, setFrame_overrunTaken,
      goodTap_taken d _ fresh' (by rw [line, ready]; exact nofun), goodTap_taken d _ fresh'' (by rw [line']; exact nofun),
      discardUnread_of_unread unread', discardUnread_of_read read, overrunTaken_eq, takeTap_modState]

/-- Settles O20: an overrun, a TAP that overruns a verdict, and the host's write of LINE_EVENTS. -/
theorem overrunsAreCountedAndFlagged : Obligations.OverrunsAreCountedAndFlagged := by
  intro s n q db iss ser chk
  refine ⟨fun h ⟨d, good⟩ inFlight fresh => ?_, fun h ready tapMade fresh => ?_, fun v => ⟨fun opened => ?_,
    fun closed => ?_⟩⟩
  · have line := setFrame_line n .quiet s
    rw [exec_tap_good h (tapDirection_good good), goodTap_inFlight d _ (by rw [line]; exact fresh)
      (by rw [line]; exact inFlight), overrun_eq, setFrame, State.line_modLine_same, modLine_eq]
    simp only [set_set_eq]
    rfl
  · exact exec_tap_unread db iss ser chk h (by simp [Line.unread, ready, tapMade]) fresh
  · have low : v.truncate 16 = v.extractLsb' 0 16 := BitVec.setWidth_eq_extractLsb' (by decide)
    show Host.Outcome.next (clearLineEvents v s) = _
    rw [clearLineEvents, if_pos opened, low]
    rfl
  · exact congrArg Host.Outcome.next (if_neg (by simp [closed]))

end Sys2Proof.Machine
end

section
/-! The arrival of a tap (R96 to R102), with the settling of O21. -/

namespace Sys2Proof.Machine

/-! ## Contexts (R96) -/

theorem freeContext_eq_some_iff (s : State) (c : CtxNo) : freeContext s = some c ↔ lowestFreeContext c s := by
  simp only [freeContext, allCtxs, find?_finRange_eq_some_iff, lowestFreeContext, Option.isNone_iff_eq_none,
    Option.isNone_eq_false_iff, Option.isSome_iff_ne_none]

theorem freeContext_eq_none_iff (s : State) : freeContext s = none ↔ ∀ c, s.ctx c ≠ none := by
  simp [freeContext, allCtxs]

/-- R96: where some context is free, one of them is the lowest. -/
theorem exists_lowestFreeContext {s : State} {c : CtxNo} (h : s.ctx c = none) : ∃ c', lowestFreeContext c' s := by
  cases found : freeContext s with
  | none => exact absurd h ((freeContext_eq_none_iff s).mp found c)
  | some c' => exact ⟨c', (freeContext_eq_some_iff s c').mp found⟩

/-! ## A TAP taken (R83) -/

theorem isEcho_eq_false {l : Line} {q : Byte} (h : l.lastSeq ≠ some q ∨ l.holdsFrameError = true) :
    l.isEcho q = false := by
  rcases h with fresh | error
  · simp [Line.isEcho, fresh]
  · simp [Line.isEcho, error]

/-- R83: a good TAP that the line takes. -/
theorem exec_tap_takes {n : LineNo} {s : State} {q db : Byte} {iss : BitVec 16} {ser : BitVec 40} {chk : Byte}
    {d : Direction} (takes : takesTap n q s) (good : tapFrameGood q db iss ser chk d) :
    exec (.tap n q db iss ser chk) s =
      .next (settle (takeTap n q d (mkIdent iss ser) (setFrame n .quiet s))) := by
  obtain ⟨h, fresh, state⟩ := takes
  have line := setFrame_line n .quiet s
  have notEcho : ((setFrame n .quiet s).line n).isEcho q = false := by rw [line]; exact isEcho_eq_false fresh
  have other : ((setFrame n .quiet s).line n).state ≠ .inFlight := by
    rw [line]
    rcases state with idle | taken | ⟨ready, _⟩
    · simp [idle]
    · simp [taken]
    · simp [ready]
  have read : ((setFrame n .quiet s).line n).unread = false := by
    rw [line]
    rcases state with idle | taken | ⟨ready, error⟩
    · simp [Line.unread, idle]
    · simp [Line.unread, taken]
    · have error : ({ s.line n with frame := .quiet } : Line).holdsFrameError = true := error
      simp [Line.unread, error]
  rw [exec_tap_good h (tapDirection_good good), goodTap_taken d _ notEcho other, discardUnread_of_read read]

/-- R83: the line keeps the sequence, drops its verdict and counts the tap, the wire at rest. -/
def tookTap (n : LineNo) (q : Byte) (s : State) : State := s.modLine n fun l => l.took q

theorem tookTap_eq (n : LineNo) (q : Byte) (s : State) :
    ((setFrame n .quiet s).modLine n fun l =>
        { l with verdict := none, lastSeq := some q, tapsTaken := satInc16 l.tapsTaken }) = tookTap n q s :=
  modLine_modLine s n _ _

theorem tookTap_line (n : LineNo) (q : Byte) (s : State) : (tookTap n q s).line n = (s.line n).took q :=
  State.line_modLine_same s n _

/-- R83: a TAP that meets no free context, or an engine that is not RUNNING, is answered BUSY. -/
theorem answerBusy_tookTap (n : LineNo) (q : Byte) (why : Reason) (s : State) :
    answerBusy n q why (tookTap n q s) =
      { s with
        lines :=
          s.lines.set n.val
            { (s.line n).took q with
              state := .ready, verdict := some (plainVerdict q .busy why s), busy := satInc16 (s.line n).busy }
            n.isLt } := by
  rw [answerBusy, holdVerdict, tookTap, modLine_modLine, modLine_modLine, modLine_eq]
  rfl

/-- R83, R88: the state in which a taken tap arrives: its line IN_FLIGHT, its deadline timer started. -/
def inFlightAt (n : LineNo) (q : Byte) (s : State) : State :=
  { s with
    lines :=
      s.lines.set n.val
        { (s.line n).took q with
          state := .inFlight,
          timer := some { start := s.clock.timeBase, duration := 10 * (s.line n).config.deadline.toNat } }
        n.isLt }

theorem takeTap_notRunning {n : LineNo} {s : State} (q : Byte) (d : Direction) (x : Ident) (h : s.running = false) :
    takeTap n q d x (setFrame n .quiet s) = answerBusy n q .engineNotRunning (tookTap n q s) := by
  have stopped : (!(setFrame n .quiet s).running) = true := congrArg (! ·) h
  simp only [takeTap, tookTap_eq]
  exact if_pos stopped

theorem takeTap_noContext {n : LineNo} {s : State} (q : Byte) (d : Direction) (x : Ident) (h : s.running = true)
    (none : freeContext s = none) :
    takeTap n q d x (setFrame n .quiet s) = answerBusy n q .noContext (tookTap n q s) := by
  have running : ¬ (!(setFrame n .quiet s).running) = true := by
    show ¬ (!s.running) = true
    simp [h]
  have none : freeContext (tookTap n q s) = Option.none := none
  simp only [takeTap, tookTap_eq]
  rw [if_neg running, none]

theorem takeTap_arrives {n : LineNo} {s : State} {c : CtxNo} (q : Byte) (d : Direction) (x : Ident)
    (h : s.running = true) (free : freeContext s = some c) :
    takeTap n q d x (setFrame n .quiet s) = arrive c (tapContext n q d x s) (inFlightAt n q s) := by
  have running : ¬ (!(setFrame n .quiet s).running) = true := by
    show ¬ (!s.running) = true
    simp [h]
  have free : freeContext (tookTap n q s) = some c := free
  have context : tapContext n q d x (tookTap n q s) = tapContext n q d x s := by
    rw [tapContext, tookTap_line]
    rfl
  have timer : deadlineTimer n (tookTap n q s) =
      { start := s.clock.timeBase, duration := 10 * (s.line n).config.deadline.toNat } := by
    rw [deadlineTimer, tookTap_line]
    rfl
  have inFlight : ((tookTap n q s).modLine n fun l =>
      { l with
        state := .inFlight,
        timer := some { start := s.clock.timeBase, duration := 10 * (s.line n).config.deadline.toNat } }) =
      inFlightAt n q s := modLine_modLine s n _ _
  simp only [takeTap, tookTap_eq]
  rw [if_neg running, free]
  dsimp only
  rw [context, timer, inFlight]

/-! ## The arrival tests (R100, R101) -/

/-- R83: a verdict delivered in the taking event. -/
theorem deliver_inFlightAt {n : LineNo} {q : Byte} {s t : State} (v : Verdict) (lines : t.lines = (inFlightAt n q s).lines) :
    deliver n v t = { t with lines := s.lines.set n.val ((s.line n).answered q v) n.isLt } := by
  have line : t.line n = _ := (congrArg (fun ls => ls.get n) lines).trans (get_set_eq _ n _)
  have state : (t.line n).state = .inFlight := congrArg Line.state line
  rw [deliver_inFlight n v t state, line, lines, inFlightAt]
  simp only [State.setLines, set_set_eq]
  rfl

/-- R100: a tap whose winning rule is a DENY. -/
theorem arrive_denied {c : CtxNo} {x : TapContext} {s : State} {r : Fin 16} (wins : winningRule x.ident s = some r)
    (deny : (s.ranges.get r).action = .deny) :
    arrive c x s = deliver x.line (plainVerdict x.sequence .refuse .rangeDeny s) s := by
  simp only [arrive, wins, deny]

/-- R100, R137: what the winning rule, or none, leaves of a tap that it does not deny. -/
theorem arrive_ruled (c : CtxNo) {x : TapContext} {s : State} {m : RuleMark} (unmarked : x.mark = .none)
    (rule : ruleMark x.ident s = some m) :
    ∃ lw at', arrive c x s = testMarks c { x with mark := m } { s with lastWatch := lw, attn := at' } ∧
      watched x.line x.ident m s { s with lastWatch := lw, attn := at' } := by
  unfold arrive
  unfold ruleMark at rule
  cases wins : winningRule x.ident s with
  | none =>
    simp only [wins] at rule
    obtain rfl := Option.some.inj rule
    rw [← unmarked]
    exact ⟨s.lastWatch, s.attn, rfl, fun _ => ⟨rfl, rfl⟩, fun watch => absurd (unmarked.symm.trans watch) nofun⟩
  | some r =>
    simp only [wins] at rule ⊢
    cases action : (s.ranges.get r).action with
    | deny =>
      simp only [action] at rule
      exact absurd rule nofun
    | cls =>
      simp only [action] at rule ⊢
      obtain rfl := Option.some.inj rule
      exact ⟨s.lastWatch, s.attn, rfl, fun _ => ⟨rfl, rfl⟩, fun watch => absurd watch nofun⟩
    | watch =>
      simp only [action] at rule ⊢
      obtain rfl := Option.some.inj rule
      refine ⟨{ valid := true, line := x.line, ident := x.ident, rule := r }, raised .watch s, ?_,
        fun other => absurd rfl other, fun _ => ⟨rfl, r, wins, rfl⟩⟩
      rw [watchWin, raise_eq_raised]
      rfl

/-- R101: a block mark refuses the tap. -/
theorem testMarks_marked (c : CtxNo) {x : TapContext} {s : State} (h : ∃ k, s.marks.get k = some x.ident) :
    testMarks c x s = deliver x.line (plainVerdict x.sequence .refuse .blocked s) s :=
  if_pos ((markedIdent_iff _ _).mpr h)

theorem testMarks_unmarked (c : CtxNo) {x : TapContext} {s : State} (h : ∀ k, s.marks.get k ≠ some x.ident) :
    testMarks c x s = askCache c x s :=
  if_neg fun found => by
    obtain ⟨k, mark⟩ := (markedIdent_iff _ _).mp found
    exact h k mark

/-- R100: the context of a tap with the mark that its winning rule leaves. -/
def ruledContext (n : LineNo) (q : Byte) (d : Direction) (x : Ident) (m : RuleMark) (s : State) : TapContext :=
  { tapContext n q d x s with mark := m }

/-- R83, R137: the state in which a tap that no rule denies reaches the block mark test. -/
def ruledState (n : LineNo) (q : Byte) (lw : LastWatch) (at' : Attention) (s : State) : State :=
  { inFlightAt n q s with lastWatch := lw, attn := at' }

/-- R83, R96, R100: a good TAP that arrives and is not denied reaches the block mark test. -/
theorem exec_tap_arrives {n : LineNo} {s : State} {q db : Byte} {iss : BitVec 16} {ser : BitVec 40} {chk : Byte}
    {d : Direction} {c : CtxNo} {m : RuleMark} (takes : takesTap n q s) (good : tapFrameGood q db iss ser chk d)
    (running : s.running = true) (free : lowestFreeContext c s) (rule : ruleMark (mkIdent iss ser) s = some m) :
    ∃ lw at', exec (.tap n q db iss ser chk) s =
        .next (settle (testMarks c (ruledContext n q d (mkIdent iss ser) m s) (ruledState n q lw at' s))) ∧
      watched n (mkIdent iss ser) m s (ruledState n q lw at' s) := by
  obtain ⟨lw, at', arrives, watched⟩ := arrive_ruled c (x := tapContext n q d (mkIdent iss ser) s)
    (s := inFlightAt n q s) (m := m) rfl rule
  refine ⟨lw, at', ?_, watched⟩
  rw [exec_tap_takes takes good, takeTap_arrives q d _ running ((freeContext_eq_some_iff s c).mpr free), arrives]
  rfl

/-- Settles O21: BUSY, RANGE_DENY and BLOCKED. -/
theorem tapsAnsweredAtOnce : Obligations.TapsAnsweredAtOnce := by
  refine ⟨fun s n q db iss ser chk d takes good => ⟨fun stopped => ?_, fun running none => ?_⟩,
    fun s n q db iss ser chk d c takes good running unused => ⟨fun r wins deny => ?_, fun m rule marked => ?_⟩⟩
  · rw [exec_tap_takes takes good, takeTap_notRunning q d _ stopped, answerBusy_tookTap]
  · rw [exec_tap_takes takes good, takeTap_noContext q d _ running ((freeContext_eq_none_iff s).mpr none),
      answerBusy_tookTap]
  · obtain ⟨c', free⟩ := exists_lowestFreeContext unused
    have wins : winningRule (tapContext n q d (mkIdent iss ser) s).ident (inFlightAt n q s) = some r := wins
    rw [exec_tap_takes takes good, takeTap_arrives q d _ running ((freeContext_eq_some_iff s c').mpr free),
      arrive_denied wins deny]
    exact congrArg (fun t => Host.Outcome.next (settle t)) (deliver_inFlightAt _ rfl)
  · obtain ⟨c', free⟩ := exists_lowestFreeContext unused
    obtain ⟨lw, at', runs, watch⟩ := exec_tap_arrives takes good running free rule
    have marked : ∃ k, (ruledState n q lw at' s).marks.get k =
        some (ruledContext n q d (mkIdent iss ser) m s).ident := marked
    refine ⟨_, runs, ?_⟩
    rw [testMarks_marked c' marked]
    have delivered : deliver n (plainVerdict q .refuse .blocked s) (ruledState n q lw at' s) = _ :=
      deliver_inFlightAt _ rfl
    have same : deliver (ruledContext n q d (mkIdent iss ser) m s).line
        (plainVerdict (ruledContext n q d (mkIdent iss ser) m s).sequence .refuse .blocked (ruledState n q lw at' s))
        (ruledState n q lw at' s) = deliver n (plainVerdict q .refuse .blocked s) (ruledState n q lw at' s) := rfl
    rw [same, delivered]
    exact ⟨rfl, watch, ⟨rfl, rfl, rfl, rfl, rfl, rfl, rfl⟩,
      rfl, rfl, rfl, rfl, rfl, rfl, rfl, rfl, rfl, rfl, rfl, rfl, rfl, rfl⟩

end Sys2Proof.Machine
end

section
/-! A tap at the cache (R102): resolved in its own event, waiting on its slot, or missing, with the settling of O22, O23
and O24. -/

namespace Sys2Proof.Machine

/-! ## Resolution at a RESIDENT slot (R103, R118, R119) -/

theorem resolveAt_ok {i : SlotNo} {x : TapContext} {s : State} {a : Accepted}
    (h : resolve (viewAt i x s) x.ident (s.slot i).record = .ok a) :
    resolveAt i x s =
      deliver x.line (acceptVerdict x a s)
        (touch i (writePaid i a.paid (s.modSlot i fun y => { y with record := a.record, dirty := true }))) := by
  simp only [resolveAt, h]

theorem resolveAt_error {i : SlotNo} {x : TapContext} {s : State} {why : Reason}
    (h : resolve (viewAt i x s) x.ident (s.slot i).record = .error why) :
    resolveAt i x s =
      deliver x.line (refuseVerdict x why (s.slot i).record s)
        (touch i
          (s.modSlot i fun y =>
            { y with
              record := refusedRecord why (x.mark == .watch) (s.slot i).record,
              dirty := y.dirty || refusalWrites why (x.mark == .watch) })) := by
  simp only [resolveAt, h]

/-- R52: the paying product's entry reaches the pool alone. -/
theorem writePaid_eq (i : SlotNo) (paid : Option (Nat × ProductEntry)) (s : State) :
    writePaid i paid s = { s with pool := (writePaid i paid s).pool } := by
  unfold writePaid
  split
  · rfl
  · split <;> rfl

theorem writePaid_free (i : SlotNo) (paid : Option (Nat × ProductEntry)) (s : State) :
    (writePaid i paid s).pool.free = s.pool.free := by
  unfold writePaid
  split
  · rfl
  · split <;> rfl

theorem CellPool.entry_write (p : CellPool) (c d : CellNo) (x : ProductEntry) :
    (p.write c x).entry d = if c = d then x else p.entry d := by
  by_cases same : c = d
  · subst same
    rw [if_pos rfl]
    exact get_set_eq _ c x
  · rw [if_neg same]
    exact get_set_ne _ x (Ne.symm same)

/-- R116, R52: the paying product's cell holds its new entry, and the other cells stand. -/
theorem writePaid_entry (i : SlotNo) (k : Nat) (p : ProductEntry) (s : State) (cell : CellNo) :
    (writePaid i (some (k, p)) s).pool.entry cell =
      if (s.slot i).cells[k]? = some cell then p else s.pool.entry cell := by
  unfold writePaid
  dsimp only
  cases found : (s.slot i).cells[k]? with
  | none => rw [if_neg nofun]
  | some c =>
    show (s.pool.write c p).entry cell = _
    rw [CellPool.entry_write]
    simp only [Option.some.injEq]

theorem satInc8_eq (x : Byte) : satInc8 x = BitVec.ofNat 8 (min 255 (x.toNat + 1)) := by
  unfold satInc8
  split
  · next full =>
    subst full
    rfl
  · next below =>
    have lt := x.isLt
    have ne : x.toNat ≠ 255 := fun e => below (BitVec.eq_of_toNat_eq e)
    apply BitVec.eq_of_toNat_eq
    rw [BitVec.toNat_add, BitVec.toNat_ofNat]
    show (x.toNat + 1) % 256 = _
    omega

/-! ## A tap that waits -/

theorem setAwait_tap {s : State} {c : CtxNo} {x : TapContext} (record : Bool) (used : s.ctx c = some x) :
    setAwait record (.tap c) s = s.setCtx c (some { x with awaitRecord := record }) := by
  simp only [setAwait, used]

theorem setCtx_setCtx (s : State) (c : CtxNo) (x y : Option TapContext) : (s.setCtx c x).setCtx c y = s.setCtx c y := by
  simp only [State.setCtx, State.setTaps, set_set_eq]

theorem setAwait_eq (record : Bool) (w : Waiter) (s : State) :
    setAwait record w s = { s with taps := (setAwait record w s).taps } := by
  unfold setAwait
  split
  · split <;> rfl
  · rfl

theorem setAwait_taps_congr {s t : State} (record : Bool) (w : Waiter) (taps : t.taps = s.taps) :
    (setAwait record w t).taps = (setAwait record w s).taps := by
  cases w with
  | change => exact taps
  | tap c =>
    have ctx : t.ctx c = s.ctx c := congrArg (fun v => v.get c) taps
    unfold setAwait
    simp only [ctx]
    split
    · simp only [State.setCtx, State.setTaps, taps]
    · exact taps

/-- R22 to R24: an entry joins the waiting list of a slot, which it rescues when it is EVICTING. -/
theorem joinWaiting_eq (i : SlotNo) (w : Waiter) (s : State) :
    joinWaiting i w s =
      { s with
        slots :=
          s.slots.set i.val
            { s.slot i with
              waiting := (s.slot i).waiting ++ [w],
              rescued := (s.slot i).rescued || (s.slot i).state == .evicting }
            i.isLt,
        taps := (setAwait true w s).taps,
        counts :=
          { s.counts with
            rescues :=
              if (s.slot i).state = .evicting ∧ (s.slot i).rescued = false then s.counts.rescues + 1
              else s.counts.rescues } } := by
  have await : (setAwait true w (s.modSlot i fun x => { x with waiting := x.waiting ++ [w] })).taps =
      (setAwait true w s).taps := setAwait_taps_congr true w rfl
  rw [joinWaiting, setAwait_eq, await]
  dsimp only
  by_cases rescues : (s.slot i).state = .evicting ∧ (s.slot i).rescued = false
  · have rescued : ((s.slot i).rescued || (s.slot i).state == .evicting) = true := by simp [rescues]
    rw [if_pos (by simp [rescues]), if_pos rescues, rescued]
    simp only [State.modCounts, State.setCounts, State.modSlot, State.setSlot, State.setSlots, State.slot, get_set_eq,
      set_set_eq]
  · rw [if_neg (by simpa using rescues), if_neg rescues]
    have same : ((s.slot i).rescued || (s.slot i).state == .evicting) = (s.slot i).rescued := by
      cases rescued : (s.slot i).rescued with
      | true => rfl
      | false => simpa using fun evicting => rescues ⟨evicting, rescued⟩
    rw [same]
    rfl

/-- R102: a tap that reaches the cache without a RESIDENT slot keeps its context. -/
def contextKept (c : CtxNo) (x : TapContext) (s : State) : State :=
  (s.setCtx c (some x)).modLine x.line fun l => { l with ctx := some c }

theorem contextKept_ctx (c : CtxNo) (x : TapContext) (s : State) : (contextKept c x s).ctx c = some x :=
  State.ctx_setCtx_same s c (some x)

/-- R83, R96: the line of a tap that waits. -/
theorem contextKept_lines {n : LineNo} {q : Byte} {s t : State} {x : TapContext} (c : CtxNo) (line : x.line = n)
    (lines : t.lines = (inFlightAt n q s).lines) :
    (contextKept c x t).lines = s.lines.set n.val ((s.line n).waits q c s.clock.timeBase) n.isLt := by
  subst line
  have here : t.line x.line = _ := (congrArg (fun ls => ls.get x.line) lines).trans (get_set_eq _ x.line _)
  show t.lines.set x.line.val { t.line x.line with ctx := some c } x.line.isLt = _
  rw [here, lines, inFlightAt]
  simp only [set_set_eq]
  rfl

theorem askCache_resident {c : CtxNo} {x : TapContext} {s : State} {i : SlotNo} (found : findResident x.key s = some i) :
    askCache c x s = resolveAt i x s := by
  obtain ⟨slot, resident⟩ := Option.filter_eq_some_iff.mp found
  simp only [askCache, slot, resident, if_true]

theorem askCache_waits {c : CtxNo} {x : TapContext} {s : State} {i : SlotNo} (found : findSlot x.key s = some i)
    (other : (s.slot i).state ≠ .resident) : askCache c x s = joinWaiting i (.tap c) (contextKept c x s) := by
  simp only [askCache, found]
  exact if_neg (by simpa using other)

theorem askCache_misses {c : CtxNo} {x : TapContext} {s : State} (absent : findSlot x.key s = none) :
    askCache c x s = miss x.key (.tap c) (contextKept c x s) := by
  simp only [askCache, absent]
  rfl

/-! ## The state in which a tap reaches the cache -/

theorem ruledState_line (n : LineNo) (q : Byte) (lw : LastWatch) (at' : Attention) (s : State) :
    (ruledState n q lw at' s).line n = (inFlightAt n q s).line n := rfl

theorem inFlightAt_line (n : LineNo) (q : Byte) (s : State) :
    (inFlightAt n q s).line n =
      { (s.line n).took q with
        state := .inFlight,
        timer := some { start := s.clock.timeBase, duration := 10 * (s.line n).config.deadline.toNat } } :=
  get_set_eq _ n _

/-- R103, R105: the taking of a tap changes nothing that its resolution reads. -/
theorem viewAt_ruledState (i : SlotNo) {n : LineNo} {x : TapContext} (q : Byte) (lw : LastWatch) (at' : Attention)
    (s : State) (line : x.line = n) : viewAt i x (ruledState n q lw at' s) = viewAt i x s := by
  subst line
  rw [viewAt, ruledState_line, inFlightAt_line]
  rfl

theorem writePaid_pool_congr {i : SlotNo} {s t : State} (paid : Option (Nat × ProductEntry))
    (cells : (t.slot i).cells = (s.slot i).cells) (pool : t.pool = s.pool) :
    (writePaid i paid t).pool = (writePaid i paid s).pool := by
  unfold writePaid
  rw [cells, pool]
  split
  · exact pool
  · split
    · rfl
    · exact pool

/-- R103, R118: an accepted tap in its taking event. -/
theorem resolveAt_ruled_ok {i : SlotNo} {n : LineNo} {q : Byte} {x : TapContext} {s : State} {lw : LastWatch}
    {at' : Attention} {a : Accepted} (line : x.line = n)
    (h : resolve (viewAt i x s) x.ident (s.slot i).record = .ok a) :
    resolveAt i x (ruledState n q lw at' s) =
      { s with
        lastWatch := lw, attn := at', lines := s.lines.set n.val ((s.line n).answered q (acceptVerdict x a s)) n.isLt,
        slots := s.slots.set i.val { s.slot i with record := a.record, dirty := true } i.isLt,
        recency := i :: s.recency.filter (· != i), pool := (writePaid i a.paid s).pool } := by
  have h : resolve (viewAt i x (ruledState n q lw at' s)) x.ident ((ruledState n q lw at' s).slot i).record = .ok a := by
    rw [viewAt_ruledState i q lw at' s line]
    exact h
  have cells : (((ruledState n q lw at' s).modSlot i fun y => { y with record := a.record, dirty := true }).slot i).cells =
      (s.slot i).cells := by
    rw [State.slot_modSlot_same]
    rfl
  rw [resolveAt_ok h, line, writePaid_eq, writePaid_pool_congr (s := s) a.paid cells rfl,
    deliver_inFlightAt (q := q) (s := s)]
  · rfl
  · rfl

/-- R103, R119: a refused tap in its taking event. -/
theorem resolveAt_ruled_error {i : SlotNo} {n : LineNo} {q : Byte} {x : TapContext} {s : State} {lw : LastWatch}
    {at' : Attention} {why : Reason} (line : x.line = n)
    (h : resolve (viewAt i x s) x.ident (s.slot i).record = .error why) :
    resolveAt i x (ruledState n q lw at' s) =
      { s with
        lastWatch := lw, attn := at',
        lines := s.lines.set n.val ((s.line n).answered q (refuseVerdict x why (s.slot i).record s)) n.isLt,
        slots :=
          s.slots.set i.val
            { s.slot i with
              record := refusedRecord why (x.mark == .watch) (s.slot i).record,
              dirty := (s.slot i).dirty || refusalWrites why (x.mark == .watch) }
            i.isLt,
        recency := i :: s.recency.filter (· != i) } := by
  have h : resolve (viewAt i x (ruledState n q lw at' s)) x.ident ((ruledState n q lw at' s).slot i).record =
      .error why := by
    rw [viewAt_ruledState i q lw at' s line]
    exact h
  rw [resolveAt_error h, line, deliver_inFlightAt (q := q) (s := s)]
  · rfl
  · rfl

theorem refusedRecord_eq (why : Reason) (watch : Bool) (r : Record) :
    refusedRecord why watch r =
      { r with
        blockedTaps := if why = .blocked then BitVec.ofNat 8 (min 255 (r.blockedTaps.toNat + 1)) else r.blockedTaps,
        watchHits :=
          if watch = true ∧ why ≠ .notEnrolled then BitVec.ofNat 8 (min 255 (r.watchHits.toNat + 1))
          else r.watchHits } := by
  cases why <;> cases watch <;> simp [refusedRecord, satInc8_eq]

theorem refusalWrites_iff (why : Reason) (watch : Bool) :
    refusalWrites why watch = true ↔ why = .blocked ∨ (watch = true ∧ why ≠ .notEnrolled) := by
  simp [refusalWrites, and_comm]

/-- Settles O22: the resolution of a tap whose slot is RESIDENT, and what it reads and delivers. -/
theorem tapResolvedAtOnce : Obligations.TapResolvedAtOnce := by
  refine ⟨fun s n q db iss ser chk d c m i takes good running unused rule unmarked found => ?_,
    fun s n q d z => rfl, fun s i x => ?_, fun s x a => ?_, fun s x q o why r watch =>
      ⟨rfl, rfl, refusedRecord_eq why watch r, refusalWrites_iff why watch⟩⟩
  · obtain ⟨c', free⟩ := exists_lowestFreeContext unused
    obtain ⟨lw, at', runs, watch⟩ := exec_tap_arrives takes good running free rule
    have resident : findResident (ruledContext n q d (mkIdent iss ser) m s).key (ruledState n q lw at' s) = some i := found
    rw [testMarks_unmarked c' unmarked, askCache_resident resident] at runs
    intro x
    have named : x = ruledContext n q d (mkIdent iss ser) m s := rfl
    clear_value x
    subst named
    cases resolved : resolve (viewAt i (ruledContext n q d (mkIdent iss ser) m s) s)
        (ruledContext n q d (mkIdent iss ser) m s).ident (s.slot i).record with
    | ok a =>
      rw [resolveAt_ruled_ok (n := n) rfl resolved] at runs
      refine ⟨_, _, runs, rfl, fun b same => ?_, nofun, fun j other => get_set_ne _ _ other, rfl,
        writePaid_free i a.paid s, rfl, rfl, rfl, rfl, watch, ?_⟩
      · obtain rfl := Except.ok.inj same
        refine ⟨rfl, get_set_eq _ i _, fun unpaid => ?_, fun k p paid => ?_⟩
        · show (writePaid i a.paid s).pool = s.pool
          rw [unpaid]
          rfl
        · refine ⟨?_, ?_, fun cell => ?_⟩
          · simp [acceptVerdict, paid]
          · simp [acceptVerdict, paid, ridesShown]
          · show (writePaid i a.paid s).pool.entry cell = _
            rw [paid, writePaid_entry]
      · exact ⟨rfl, rfl, rfl, rfl, rfl, rfl, rfl, rfl, rfl, rfl, rfl, rfl, rfl, rfl⟩
    | error why =>
      rw [resolveAt_ruled_error (n := n) rfl resolved] at runs
      refine ⟨_, _, runs, rfl, nofun, fun why' same => ?_, fun j other => get_set_ne _ _ other, rfl, rfl, rfl, rfl,
        rfl, rfl, watch, ?_⟩
      · obtain rfl := Except.error.inj same
        exact ⟨rfl, get_set_eq _ i _, rfl⟩
      · exact ⟨rfl, rfl, rfl, rfl, rfl, rfl, rfl, rfl, rfl, rfl, rfl, rfl, rfl, rfl⟩
  · cases mark : x.mark <;> simp [viewAt, mark, tapClass] <;> exact ⟨rfl, rfl, rfl⟩
  · cases paid : a.paid <;> simp [acceptVerdict, paid, ridesShown]

/-! ## Waiting on the slot of the key (R23, R24) -/

/-- R10: the bits of an account key. -/
theorem keyOf_getLsbD (shape : Fin 9) (x : Ident) (b : Fin 16) :
    (keyOf shape x).getLsbD b.val =
      if b.val < 16 - shape.val then x.getLsbD b.val else x.getLsbD (40 + (b.val - (16 - shape.val))) := by
  have hb := b.isLt
  have hs := shape.isLt
  have low : (x.extractLsb' 0 40).toNat % 2 ^ (16 - shape.val) < 2 ^ (16 - shape.val) :=
    Nat.mod_lt _ (Nat.two_pow_pos _)
  rw [keyOf, BitVec.getLsbD_ofNat, Nat.mul_comm, Nat.testBit_two_pow_mul_add _ low, decide_eq_true hb, Bool.true_and]
  split
  · next below =>
    rw [Nat.testBit_mod_two_pow, BitVec.testBit_toNat, BitVec.getLsbD_extractLsb']
    simp only [below, decide_true, Bool.true_and, Nat.zero_add]
    rw [decide_eq_true (by omega), Bool.true_and]
  · next above =>
    rw [Nat.testBit_mod_two_pow, BitVec.testBit_toNat, BitVec.getLsbD_extractLsb', decide_eq_true (by omega),
      decide_eq_true (by omega), Bool.true_and, Bool.true_and]

/-- Settles O23: the bits of a key, and a tap that waits on its slot. -/
theorem tapWaitsOnItsSlot : Obligations.TapWaitsOnItsSlot := by
  refine ⟨keyOf_getLsbD, fun s n q db iss ser chk d c m i takes good running free rule unmarked found other => ?_⟩
  obtain ⟨lw, at', runs, watch⟩ := exec_tap_arrives takes good running free rule
  have found : findSlot (ruledContext n q d (mkIdent iss ser) m s).key (ruledState n q lw at' s) = some i := found
  have kept := contextKept_ctx c (ruledContext n q d (mkIdent iss ser) m s) (ruledState n q lw at' s)
  rw [testMarks_unmarked c unmarked, askCache_waits found other, joinWaiting_eq, setAwait_tap true kept] at runs
  refine ⟨_, runs, contextKept_lines c rfl rfl, get_set_eq _ c _, fun c' apart => ?_, get_set_eq _ i _, rfl,
    fun j apart => get_set_ne _ _ apart, rfl, rfl, rfl, rfl, watch,
    rfl, rfl, rfl, rfl, rfl, rfl, rfl, rfl, rfl, rfl, rfl, rfl, rfl, rfl⟩
  exact (get_set_ne _ _ apart).trans (get_set_ne _ _ apart)

/-! ## Misses (R25) -/

theorem miss_listed {k : Key} (w : Waiter) {s : State} (h : ∃ v, v ∈ s.slotWait ∧ waiterKey s v = k) :
    miss k w s = joinSlotWait w s :=
  if_pos (by simpa using h)

theorem miss_free {k : Key} (w : Waiter) {s : State} {i : SlotNo} (h : ∀ v, v ∈ s.slotWait → waiterKey s v ≠ k)
    (free : firstFree s = some i) : miss k w s = startFetch i k [w] (setAwait true w s) := by
  rw [miss, if_neg (by simpa using h), free]

theorem miss_clean {k : Key} (w : Waiter) {s : State} {i : SlotNo} (h : ∀ v, v ∈ s.slotWait → waiterKey s v ≠ k)
    (free : firstFree s = none) (clean : victim Slot.cleanEligible s = some i) :
    miss k w s = startFetch i k [w] (setAwait true w (cleanlyEvicted i s)) := by
  rw [miss, if_neg (by simpa using h), free, clean, ← cleanEvict_eq]

theorem miss_full {k : Key} (w : Waiter) {s : State} (h : ∀ v, v ∈ s.slotWait → waiterKey s v ≠ k)
    (free : firstFree s = none) (clean : victim Slot.cleanEligible s = none) :
    miss k w s = seekDirtyVictim (joinSlotWait w s) := by
  rw [miss, if_neg (by simpa using h), free, clean]

/-- R97: a waiting tap other than the one that keeps its context carries the key that it carried. -/
theorem waiterKey_contextKept {c : CtxNo} {x : TapContext} {s : State} {w : Waiter} (other : w ≠ .tap c) :
    waiterKey (contextKept c x s) w = waiterKey s w := by
  cases w with
  | change => rfl
  | tap d =>
    have apart : d ≠ c := fun same => other (congrArg Waiter.tap same)
    have ctx : (contextKept c x s).ctx d = s.ctx d := (State.ctx_setCtx s c d (some x)).trans (if_neg apart)
    simp only [waiterKey, ctx]

/-- R41: a tap that keeps its context joins the slot-wait list. -/
theorem joinSlotWait_contextKept (c : CtxNo) {x : TapContext} (s : State) (waits : x.awaitRecord = false) :
    joinSlotWait (.tap c) (contextKept c x s) =
      (contextKept c x s).setSlotWait (s.slotWait ++ [.tap c]) := by
  have used : ((contextKept c x s).setSlotWait (s.slotWait ++ [.tap c])).ctx c = some x := contextKept_ctx c x s
  have same : { x with awaitRecord := false } = x := by rw [← waits]
  have waiting : (contextKept c x s).slotWait = s.slotWait := rfl
  rw [joinSlotWait, waiting, setAwait_tap false used, same]
  simp only [contextKept, State.setCtx, State.setTaps, State.setSlotWait, State.modLine, State.setLines, set_set_eq]

/-- R97: a tap whose fetch starts awaits its record. -/
theorem setAwait_contextKept (c : CtxNo) (x : TapContext) (s : State) :
    setAwait true (.tap c) (contextKept c x s) = contextKept c { x with awaitRecord := true } s := by
  rw [setAwait_tap true (contextKept_ctx c x s)]
  simp only [contextKept, State.setCtx, State.setTaps, State.modLine, State.setLines, set_set_eq]
  rfl

theorem cleanlyEvicted_contextKept (i : SlotNo) (c : CtxNo) (x : TapContext) (s : State) :
    cleanlyEvicted i (contextKept c x s) = contextKept c x (cleanlyEvicted i s) := rfl

/-- R30: the fetch of a tap that keeps its context, in a FREE slot. -/
theorem startFetch_contextKept (i : SlotNo) (k : Key) (c : CtxNo) (x : TapContext) (s : State) :
    startFetch i k [.tap c] (contextKept c x s) =
      { s with
        lines := (contextKept c x s).lines, taps := s.taps.set c.val (some x) c.isLt,
        slots := s.slots.set i.val { Slot.unused with state := .fetching, key := k, waiting := [.tap c] } i.isLt,
        counts := { s.counts with misses := s.counts.misses + 1 },
        port := { s.port with list := s.port.list ++ [.fetch i k (homeAddr s k)] } } := rfl

/-- R30, R33: the fetch of a tap that keeps its context, in a slot evicted clean for it. -/
theorem startFetch_contextKept_evicted (i : SlotNo) (k : Key) (c : CtxNo) (x : TapContext) (s : State) :
    startFetch i k [.tap c] (contextKept c x (cleanlyEvicted i s)) =
      { s with
        lines := (contextKept c x s).lines, taps := s.taps.set c.val (some x) c.isLt,
        slots := s.slots.set i.val { Slot.unused with state := .fetching, key := k, waiting := [.tap c] } i.isLt,
        counts :=
          { s.counts with misses := s.counts.misses + 1, cleanEvictions := s.counts.cleanEvictions + 1 },
        recency := s.recency.filter (· != i),
        pool := { s.pool with free := (s.slot i).cells.reverse ++ s.pool.free },
        port := { s.port with list := s.port.list ++ [.fetch i k (homeAddr s k)] } } := by
  rw [startFetch_contextKept]
  simp only [cleanlyEvicted, set_set_eq]
  rfl

/-- R102: the state in which a tap that no rule denies, and whose key has no slot, comes to R25. -/
def missingState (n : LineNo) (q : Byte) (d : Direction) (c : CtxNo) (x : Ident) (m : RuleMark) (lw : LastWatch)
    (at' : Attention) (s : State) : State :=
  contextKept c (ruledContext n q d x m s) (ruledState n q lw at' s)

/-- R102, R25: a good TAP that misses. -/
theorem exec_tap_misses {n : LineNo} {s : State} {q db : Byte} {iss : BitVec 16} {ser : BitVec 40} {chk : Byte}
    {d : Direction} {c : CtxNo} {m : RuleMark} (takes : takesTap n q s) (good : tapFrameGood q db iss ser chk d)
    (running : s.running = true) (free : lowestFreeContext c s) (rule : ruleMark (mkIdent iss ser) s = some m)
    (unmarked : ∀ k, s.marks.get k ≠ some (mkIdent iss ser))
    (absent : findSlot (keyOf s.engine.keyShape (mkIdent iss ser)) s = none) :
    ∃ lw at', exec (.tap n q db iss ser chk) s =
        .next (settle (miss (keyOf s.engine.keyShape (mkIdent iss ser)) (.tap c)
          (missingState n q d c (mkIdent iss ser) m lw at' s))) ∧
      watched n (mkIdent iss ser) m s (ruledState n q lw at' s) := by
  obtain ⟨lw, at', runs, watch⟩ := exec_tap_arrives takes good running free rule
  have absent : findSlot (ruledContext n q d (mkIdent iss ser) m s).key (ruledState n q lw at' s) = none := absent
  rw [testMarks_unmarked c unmarked, askCache_misses absent] at runs
  exact ⟨lw, at', runs, watch⟩

section
variable (n : LineNo) (q : Byte) (d : Direction) (c : CtxNo) (x : Ident) (m : RuleMark) (lw : LastWatch)
  (at' : Attention) (s : State)

theorem missingState_firstFree : firstFree (missingState n q d c x m lw at' s) = firstFree s := rfl

theorem missingState_victim (p : Slot → Bool) :
    victim p (missingState n q d c x m lw at' s) = victim p s := rfl

theorem missingState_waits_victim (p : Slot → Bool) (ws : List Waiter) :
    victim p ((missingState n q d c x m lw at' s).setSlotWait ws) = victim p s := rfl

/-- R41: the state in which the tap stands on the slot-wait list. -/
theorem joinSlotWait_missingState :
    joinSlotWait (.tap c) (missingState n q d c x m lw at' s) =
      (missingState n q d c x m lw at' s).setSlotWait (s.slotWait ++ [.tap c]) :=
  joinSlotWait_contextKept c _ rfl

theorem missingState_waits_eq (ws : List Waiter) :
    (missingState n q d c x m lw at' s).setSlotWait ws =
      { s with
        lines := (missingState n q d c x m lw at' s).lines,
        taps := s.taps.set c.val (some (ruledContext n q d x m s)) c.isLt, slotWait := ws, lastWatch := lw,
        attn := at' } := rfl

/-- R34, R42: a dirty eviction beside a tap that joins the slot-wait list. -/
theorem dirtilyEvicted_missingState (i : SlotNo) (ws : List Waiter) :
    dirtilyEvicted i ((missingState n q d c x m lw at' s).setSlotWait ws) =
      { dirtilyEvicted i s with
        lines := (missingState n q d c x m lw at' s).lines,
        taps := s.taps.set c.val (some (ruledContext n q d x m s)) c.isLt, slotWait := ws, lastWatch := lw,
        attn := at' } := rfl

theorem missingState_slotWait : (missingState n q d c x m lw at' s).slotWait = s.slotWait := rfl

theorem waiterKey_missingState {w : Waiter} (other : w ≠ .tap c) :
    waiterKey (missingState n q d c x m lw at' s) w = waiterKey s w := waiterKey_contextKept other

end

theorem seekDirtyVictim_none (s : State) (h : victim Slot.dirtyEligible s = none) :
    seekDirtyVictim s = { s with attn := raised .slotShort s } := by
  rw [seekDirtyVictim, h, ← raise_eq_raised]

theorem seekDirtyVictim_some (s : State) {i : SlotNo} (h : victim Slot.dirtyEligible s = some i) :
    seekDirtyVictim s = dirtilyEvicted i s := by
  rw [seekDirtyVictim, h, ← dirtyEvict_eq]

/-- Settles O24: the courses of a miss. -/
theorem tapMisses : Obligations.TapMisses := by
  refine ⟨fun s n q db iss ser chk d c m takes good running free rule unmarked absent ⟨w, listed, other, carries⟩ => ?_,
    fun s n q db iss ser chk d c m takes good running free rule unmarked => ?_,
    fun s n q db iss ser chk d c takes good running free unruled unmarked absent unlisted full dirtyOnly => ?_⟩
  · obtain ⟨lw, at', runs, watch⟩ := exec_tap_misses takes good running free rule unmarked absent
    have listed : ∃ v, v ∈ (missingState n q d c (mkIdent iss ser) m lw at' s).slotWait ∧
        waiterKey (missingState n q d c (mkIdent iss ser) m lw at' s) v = keyOf s.engine.keyShape (mkIdent iss ser) :=
      ⟨w, listed, (waiterKey_missingState n q d c _ m lw at' s other).trans carries⟩
    rw [miss_listed _ listed, joinSlotWait_missingState, missingState_waits_eq] at runs
    exact ⟨_, runs, contextKept_lines c rfl rfl, get_set_eq _ c _, rfl, rfl, rfl, rfl, rfl, rfl, watch,
      rfl, rfl, rfl, rfl, rfl, rfl, rfl, rfl, rfl, rfl, rfl, rfl, rfl, rfl⟩
  · intro key absent nobody
    obtain ⟨lw, at', runs, watch⟩ := exec_tap_misses takes good running free rule unmarked absent
    have unlisted : ∀ v, v ∈ (missingState n q d c (mkIdent iss ser) m lw at' s).slotWait →
        waiterKey (missingState n q d c (mkIdent iss ser) m lw at' s) v ≠ keyOf s.engine.keyShape (mkIdent iss ser) := by
      rw [missingState_slotWait, nobody]
      nofun
    refine ⟨fun i unused => ?_, fun i full clean => ?_⟩
    · rw [miss_free _ unlisted ((missingState_firstFree ..).trans unused), missingState, setAwait_contextKept,
        startFetch_contextKept] at runs
      exact ⟨_, runs, contextKept_lines c rfl rfl, get_set_eq _ c _, get_set_eq _ i _, rfl, rfl,
        fun j apart => get_set_ne _ _ apart, rfl, rfl, nobody, watch,
        rfl, rfl, rfl, rfl, rfl, rfl, rfl, rfl, rfl, rfl, rfl, rfl, rfl, rfl⟩
    · rw [miss_clean _ unlisted ((missingState_firstFree ..).trans full) ((missingState_victim ..).trans clean),
        missingState, cleanlyEvicted_contextKept, setAwait_contextKept, startFetch_contextKept_evicted] at runs
      exact ⟨_, runs, contextKept_lines c rfl rfl, get_set_eq _ i _, rfl, rfl,
        fun j apart => get_set_ne _ _ apart, rfl, rfl, nobody, watch,
        rfl, rfl, rfl, rfl, rfl, rfl, rfl, rfl, rfl, rfl, rfl, rfl, rfl, rfl⟩
  · have rule : ruleMark (mkIdent iss ser) s = some .none := by simp only [ruleMark, unruled]
    obtain ⟨lw, at', runs, watch, _⟩ := exec_tap_misses takes good running free rule unmarked absent
    obtain ⟨rfl, rfl⟩ : lw = s.lastWatch ∧ at' = s.attn := watch nofun
    have unlisted : ∀ v, v ∈ s.slotWait →
        waiterKey (missingState n q d c (mkIdent iss ser) .none s.lastWatch s.attn s) v ≠
          keyOf s.engine.keyShape (mkIdent iss ser) := fun v listed => by
      rw [waiterKey_missingState _ _ _ _ _ _ _ _ _ (unlisted v listed).1]
      exact (unlisted v listed).2
    rw [miss_full _ unlisted ((missingState_firstFree ..).trans full) ((missingState_victim ..).trans dirtyOnly),
      joinSlotWait_missingState] at runs
    cases dirty : victim Slot.dirtyEligible s with
    | none =>
      rw [seekDirtyVictim_none _ ((missingState_waits_victim ..).trans dirty), missingState_waits_eq] at runs
      exact ⟨_, runs, contextKept_lines c rfl rfl, get_set_eq _ c _, rfl,
        ⟨rfl, rfl, rfl, rfl, rfl, rfl, rfl, rfl, rfl, rfl, rfl, rfl, rfl, rfl⟩, fun _ => ⟨rfl, rfl, rfl, rfl⟩, nofun⟩
    | some i =>
      rw [seekDirtyVictim_some _ ((missingState_waits_victim ..).trans dirty), dirtilyEvicted_missingState] at runs
      refine ⟨_, runs, contextKept_lines c rfl rfl, get_set_eq _ c _, rfl,
        ⟨rfl, rfl, rfl, rfl, rfl, rfl, rfl, rfl, rfl, rfl, rfl, rfl, rfl, rfl⟩, nofun, fun j same => ?_⟩
      obtain rfl := Option.some.inj same
      exact ⟨rfl, rfl, rfl, rfl, rfl, rfl⟩

end Sys2Proof.Machine
end

section
/-! Line configuration and deadlines (R72, R75, R88 to R91, R98), with the settling of O18 and O27. -/

namespace Sys2Proof.Machine

/-! ## Configuration words (R72) -/

theorem extract_or_one (v : Word) {start len : Nat} (h : 1 ≤ start) :
    (v ||| 1#32).extractLsb' start len = v.extractLsb' start len := by
  ext j hj
  have above : start + j ≠ 0 := by omega
  rw [BitVec.getElem_extractLsb', BitVec.getElem_extractLsb', BitVec.getLsbD_or, BitVec.getLsbD_one,
    decide_eq_false above, Bool.and_false, Bool.or_false]

theorem extract_and_not_one (v : Word) {start len : Nat} (h : 1 ≤ start) (fits : start + len ≤ 32) :
    (v &&& ~~~1#32).extractLsb' start len = v.extractLsb' start len := by
  ext j hj
  have above : start + j ≠ 0 := by omega
  have below : start + j < 32 := by omega
  rw [BitVec.getElem_extractLsb', BitVec.getElem_extractLsb', BitVec.getLsbD_and, BitVec.getLsbD_not, BitVec.getLsbD_one,
    decide_eq_false above, decide_eq_true below, Bool.and_false, Bool.not_false, Bool.and_true, Bool.and_true]

theorem configOf_code {v : Word} {m : Mode} (deadline : v.extractLsb' 16 8 ≠ 0)
    (mode : (v.extractLsb' 8 2).toNat = m.code) : configOf v = some (configFrom v m v[0]) := by
  rw [configOf, if_neg deadline, mode]
  cases m <;> rfl

theorem configOf_none {v : Word} (h : v.extractLsb' 16 8 = 0 ∨ v.extractLsb' 8 2 = 0) : configOf v = none := by
  rw [configOf]
  rcases h with deadline | mode
  · rw [if_pos deadline]
  · rw [mode]
    exact ite_self _

/-- Log entry 22: LINE_ENABLE sets the enabled bit of the word it carries. -/
theorem configOf_enable {v : Word} {m : Mode} (deadline : v.extractLsb' 16 8 ≠ 0)
    (mode : (v.extractLsb' 8 2).toNat = m.code) : configOf (v ||| 1#32) = some (configFrom v m true) := by
  have accept : (v ||| 1#32)[24] = v[24] := by simp
  have enabled : (v ||| 1#32)[0] = true := by simp
  rw [configOf_code (m := m) (by rwa [extract_or_one v (by decide)]) (by rwa [extract_or_one v (by decide)]), enabled]
  simp only [configFrom, extract_or_one v (start := 4) (by decide), extract_or_one v (start := 16) (by decide), accept]

/-- Log entry 22: LINE_DISABLE clears the enabled bit of the word it carries. -/
theorem configOf_disable {v : Word} {m : Mode} (deadline : v.extractLsb' 16 8 ≠ 0)
    (mode : (v.extractLsb' 8 2).toNat = m.code) : configOf (v &&& ~~~1#32) = some (configFrom v m false) := by
  have accept : (v &&& ~~~1#32)[24] = v[24] := by simp
  have enabled : (v &&& ~~~1#32)[0] = false := by simp
  rw [configOf_code (m := m) (by rwa [extract_and_not_one v (by decide) (by decide)])
    (by rwa [extract_and_not_one v (by decide) (by decide)]), enabled]
  simp only [configFrom, extract_and_not_one v (start := 4) (len := 3) (by decide) (by decide),
    extract_and_not_one v (start := 16) (len := 8) (by decide) (by decide), accept]

/-! ## Withdrawal (R98) -/

theorem withdrawTap_idle {n : LineNo} {s : State} (h : (s.line n).ctx = none) : withdrawTap n s = s := by
  simp only [withdrawTap, h]

theorem withdrawTap_held {n : LineNo} {s : State} {c : CtxNo} (h : (s.line n).ctx = some c) :
    withdrawTap n s =
      { s with
        slots := s.slots.map fun x => { x with waiting := x.waiting.filter (· != .tap c) },
        slotWait := s.slotWait.filter (· != .tap c), taps := s.taps.set c.val none c.isLt } := by
  simp only [withdrawTap, h]
  rfl

theorem withdrawTap_eq (n : LineNo) (s : State) :
    withdrawTap n s =
      { s with
        slots := (withdrawTap n s).slots, slotWait := (withdrawTap n s).slotWait, taps := (withdrawTap n s).taps } := by
  cases h : (s.line n).ctx with
  | none => rw [withdrawTap_idle h]
  | some c => rw [withdrawTap_held h]

theorem withdrawTap_passes (n : LineNo) (s : State) (i : SlotNo) :
    ((withdrawTap n s).slot i).passes = (s.slot i).passes := by
  cases h : (s.line n).ctx with
  | none => rw [withdrawTap_idle h]
  | some c =>
    have slot : (withdrawTap n s).slot i = { s.slot i with waiting := (s.slot i).waiting.filter (· != .tap c) } := by
      rw [withdrawTap_held h]
      exact get_map_eq _ s.slots i
    rw [slot]

/-- R98: a withdrawal, from any state that differs from the event's own in pending deadline passes alone. -/
theorem tapWithdrawn_of_withdrawTap {n : LineNo} {s r t : State} (line : (r.line n).ctx = (s.line n).ctx)
    (taps : r.taps = s.taps) (wait : r.slotWait = s.slotWait)
    (slots : ∀ i, r.slot i = { s.slot i with passes := (r.slot i).passes })
    (idle : (s.line n).ctx = none → r.slots = s.slots) (tSlots : t.slots = (withdrawTap n r).slots)
    (tTaps : t.taps = (withdrawTap n r).taps) (tWait : t.slotWait = (withdrawTap n r).slotWait) :
    tapWithdrawn n s t := by
  have slot (i : SlotNo) : t.slot i = (withdrawTap n r).slot i := congrArg (fun v => v.get i) tSlots
  have ctx (c : CtxNo) : t.ctx c = (withdrawTap n r).ctx c := congrArg (fun v => v.get c) tTaps
  refine ⟨fun c held => ?_, fun none => ?_, fun c other => ?_⟩
  · rw [withdrawTap_held (line.trans held)] at tWait
    refine ⟨?_, tWait.trans (by rw [← wait]), fun i => ?_⟩
    · rw [ctx, withdrawTap_held (line.trans held)]
      exact get_set_eq _ c _
    · have here : t.slot i = { r.slot i with waiting := (r.slot i).waiting.filter (· != .tap c) } := by
        rw [slot, withdrawTap_held (line.trans held)]
        exact get_map_eq _ r.slots i
      rw [here, slots i]
  · rw [withdrawTap_idle (line.trans none)] at tWait
    refine ⟨tWait.trans wait, fun i => ?_⟩
    rw [slot, withdrawTap_idle (line.trans none)]
    exact congrArg (fun v => v.get i) (idle none)
  · have same : r.ctx c = s.ctx c := congrArg (fun v => v.get c) taps
    rw [ctx]
    cases held : (s.line n).ctx with
    | none => rw [withdrawTap_idle (line.trans held), same]
    | some c' =>
      have apart : c ≠ c' := fun e => other (held.trans (congrArg some e.symm))
      rw [withdrawTap_held (line.trans held)]
      exact (get_set_ne _ _ apart).trans same

/-! ## Disabling (R75, R91) -/

theorem writeConfig_of_none {n : LineNo} {v : Word} {s : State} (h : configOf v = none) : writeConfig n v s = s := by
  simp only [writeConfig, h, ite_self]

theorem writeConfig_of_some {n : LineNo} {v : Word} {s : State} {c : LineConfig} (opened : s.isOpen = true)
    (h : configOf v = some c) :
    writeConfig n v s = applyEnabled n c.enabled (s.modLine n fun l => { l with config := c }) := by
  simp only [writeConfig, h, opened, if_true]

theorem disableLine_modLine (n : LineNo) (c : LineConfig) (s : State) :
    disableLine n (s.modLine n fun l => { l with config := c }) =
      { withdrawTap n s with
        lines :=
          s.lines.set n.val
            { s.line n with
              config := c, state := .disabled, ctx := none, verdict := none, lastSeq := none, timer := none,
              frame := if (s.line n).frame = .quiet then .quiet else .ignored }
            n.isLt } := by
  have line : ((s.modLine n fun l => { l with config := c }).line n) = { s.line n with config := c } :=
    State.line_modLine_same s n _
  rw [disableLine]
  cases held : (s.line n).ctx with
  | none =>
    rw [withdrawTap_idle held, withdrawTap_idle (by rw [line]; exact held), modLine_modLine]
    rfl
  | some c' =>
    have held' : ((s.modLine n fun l => { l with config := c }).line n).ctx = some c' := by rw [line]; exact held
    rw [withdrawTap_held held, withdrawTap_held held']
    simp only [State.modLine, State.line, State.setLines, get_set_eq, set_set_eq]
    rfl

theorem applyEnabled_on (n : LineNo) (c : LineConfig) (s : State) :
    applyEnabled n true (s.modLine n fun l => { l with config := c }) =
      { s with
        lines :=
          s.lines.set n.val
            { s.line n with config := c, state := if (s.line n).state = .disabled then .idle else (s.line n).state }
            n.isLt } := by
  have state : ((s.modLine n fun l => { l with config := c }).line n).state = (s.line n).state := by
    rw [State.line_modLine_same]
  rw [applyEnabled, state]
  by_cases off : (s.line n).state = .disabled
  · rw [if_pos off, if_pos off, if_pos rfl, modLine_modLine]
    rfl
  · rw [if_neg off, if_neg off, if_pos rfl]
    rfl

theorem applyEnabled_off (n : LineNo) (c : LineConfig) (s : State) :
    applyEnabled n false (s.modLine n fun l => { l with config := c }) =
      if (s.line n).state = .disabled then s.modLine n fun l => { l with config := c }
      else settle (disableLine n (s.modLine n fun l => { l with config := c })) := by
  have state : ((s.modLine n fun l => { l with config := c }).line n).state = (s.line n).state := by
    rw [State.line_modLine_same]
  rw [applyEnabled, state]
  simp only [Bool.false_eq_true, if_false]

theorem withdrawTap_frame (n : LineNo) (s t : State) (h : t = { withdrawTap n s with lines := t.lines }) :
    t.attn = s.attn ∧ t.engine = s.engine ∧ withdrawalFrame s t := by
  rw [h, withdrawTap_eq]
  exact ⟨rfl, rfl, rfl, rfl, rfl, rfl, rfl, rfl, rfl, keepsHost_refl s⟩

/-- Settles O18: LINE_CONFIG taken or ignored whole. -/
theorem lineConfigurationWrites : Obligations.LineConfigurationWrites := by
  refine ⟨fun s n v => ⟨fun m opened deadline mode => ?_, fun ignored => ?_⟩,
    fun s n v m opened deadline mode => ⟨fun off => ?_, fun on => ?_⟩⟩
  · exact congrArg Host.Outcome.next
      ((writeConfig_of_some opened (configOf_enable deadline mode)).trans (applyEnabled_on n _ s))
  · have keeps (w : Word) (deadline : w.extractLsb' 16 8 = v.extractLsb' 16 8)
        (mode : w.extractLsb' 8 2 = v.extractLsb' 8 2) : writeConfig n w s = s := by
      rcases ignored with closed | ignored
      · exact writeConfig_of_closed n w closed
      · exact writeConfig_of_none (configOf_none (by rw [deadline, mode]; exact ignored))
    exact ⟨congrArg Host.Outcome.next (keeps _ (extract_or_one v (by decide)) (extract_or_one v (by decide))),
      congrArg Host.Outcome.next
        (keeps _ (extract_and_not_one v (by decide) (by decide)) (extract_and_not_one v (by decide) (by decide)))⟩
  · exact congrArg Host.Outcome.next
      ((writeConfig_of_some opened (configOf_disable deadline mode)).trans
        ((applyEnabled_off n _ s).trans (if_pos off)))
  · refine ⟨_, congrArg Host.Outcome.next
      ((writeConfig_of_some opened (configOf_disable deadline mode)).trans
        ((applyEnabled_off n _ s).trans (if_neg on))), ?_⟩
    rw [disableLine_modLine]
    refine ⟨rfl, tapWithdrawn_of_withdrawTap (r := s) rfl rfl rfl (fun _ => rfl) (fun _ => rfl) rfl rfl rfl,
      withdrawTap_passes n s, withdrawTap_frame n s _ rfl⟩

/-! ## Deadlines (R88, R90) -/

theorem addPass_slot (w : Waiter) (s : State) (i : SlotNo) :
    (addPass w s).slot i =
      { s.slot i with
        passes :=
          if (s.slot i).state = .fetching ∧ w ∈ (s.slot i).waiting then satInc8 (s.slot i).passes
          else (s.slot i).passes } := by
  have slot : (addPass w s).slot i =
      if (s.slot i).state == .fetching && (s.slot i).waiting.contains w then
        { s.slot i with passes := satInc8 (s.slot i).passes }
      else s.slot i := get_map_eq _ s.slots i
  rw [slot]
  by_cases waits : (s.slot i).state = .fetching ∧ w ∈ (s.slot i).waiting
  · rw [if_pos waits, if_pos (by simp [waits])]
  · rw [if_neg waits, if_neg (by simpa using waits)]

theorem passForDeadline_held {n : LineNo} {s : State} {c : CtxNo} (h : (s.line n).ctx = some c) :
    passForDeadline n s = if (s.line n).config.accept then addPass (.tap c) s else s := by
  simp only [passForDeadline, h]

theorem passForDeadline_eq (n : LineNo) (s : State) :
    passForDeadline n s = { s with slots := (passForDeadline n s).slots } := by
  unfold passForDeadline
  split
  · split <;> rfl
  · rfl

/-- R90, R26: the pending deadline passes that a DEADLINE_ACCEPT adds. -/
theorem passForDeadline_slot {n : LineNo} {s : State} {c : CtxNo} (h : (s.line n).ctx = some c) (i : SlotNo) :
    (passForDeadline n s).slot i =
      { s.slot i with
        passes :=
          if (s.line n).config.accept = true ∧ (s.slot i).state = .fetching ∧ .tap c ∈ (s.slot i).waiting then
            satInc8 (s.slot i).passes
          else (s.slot i).passes } := by
  rw [passForDeadline_held h]
  by_cases accept : (s.line n).config.accept = true
  · rw [if_pos accept, addPass_slot]
    simp only [accept, true_and]
  · rw [if_neg accept, if_neg (fun both => accept both.1)]

/-- R88, R90: the state that an expiry leaves. -/
theorem expireDeadline_eq (n : LineNo) (s : State) :
    expireDeadline n s =
      { withdrawTap n (passForDeadline n s) with
        lines :=
          s.lines.set n.val
            { s.line n with
              state := .ready, ctx := none, verdict := some (deadlineVerdict n s), timer := none,
              deadlines := satInc16 (s.line n).deadlines }
            n.isLt,
        attn := if (s.line n).config.accept then raised .deadlinePass s else s.attn } := by
  rw [expireDeadline]
  dsimp only
  rw [withdrawTap_eq, passForDeadline_eq, raise_eq_raised]
  split <;> rfl

/-- R90: the verdict of a deadline. -/
theorem deadlineVerdict_eq {n : LineNo} {s : State} {c : CtxNo} {x : TapContext} {q : Byte}
    (held : (s.line n).ctx = some c) (used : s.ctx c = some x) (seq : (s.line n).lastSeq = some q) :
    deadlineVerdict n s =
      plainVerdict q (if (s.line n).config.accept = true then .deadlineAccept else .deadlineRefuse)
        (if x.awaitRecord = true then .none else .slotShort) s := by
  simp only [deadlineVerdict, deadlineReason, held, seq, Option.bind_some, used, Option.getD_some]

/-- Settles O27: the expiry of a deadline. -/
theorem deadlineExpiry : Obligations.DeadlineExpiry := by
  intro s n c x q t0 state timer due held used seq
  have expired : deadlineDue n s = true := by simp [deadlineDue, state, timer, due]
  have line : (passForDeadline n s).line n = s.line n := by rw [passForDeadline_eq]; rfl
  refine ⟨expireDeadline n s, congrArg Host.Outcome.next (if_pos expired), ?_⟩
  rw [expireDeadline_eq, deadlineVerdict_eq held used seq]
  refine ⟨rfl, tapWithdrawn_of_withdrawTap (r := passForDeadline n s) (by rw [line]) (by rw [passForDeadline_eq])
    (by rw [passForDeadline_eq]) (fun i => by rw [passForDeadline_slot held]) (fun none => ?_) rfl rfl rfl,
    fun i => ?_, rfl, ?_⟩
  · exact absurd (held.symm.trans none) nofun
  · refine (withdrawTap_passes n (passForDeadline n s) i).trans ?_
    rw [passForDeadline_slot held]
  · rw [withdrawTap_eq, passForDeadline_eq]
    exact ⟨rfl, rfl, rfl, rfl, rfl, rfl, rfl, rfl, keepsHost_refl s⟩

end Sys2Proof.Machine
end

section
/-! Resolution (R104 to R118): the stages of an entry, the refill and the priced exit, with the settling of O28, O29 and
O30. -/

namespace Sys2Proof.Machine

/-! ## The stages before the entry and the exit (R104 to R106) -/

/-- R106, stages 4 and 5: the resolution of a direction. -/
def resolveDirection (v : TapView) (r : Record) : Except Reason Accepted :=
  if v.direction = .entry then resolveEntry v r else resolveExit v r

theorem resolve_notEnrolled {x : Ident} {r : Record} (v : TapView) (h : r.state = .empty ∨ r.ident ≠ x) :
    resolve v x r = .error .notEnrolled := if_pos (by simpa using h)

theorem resolve_blocked {x : Ident} {r : Record} (v : TapView) (state : r.state = .blocked) (own : r.ident = x) :
    resolve v x r = .error .blocked := by
  rw [resolve, if_neg (by simp [state, own]), if_pos (by simp [state])]

theorem resolve_active {x : Ident} {r : Record} (v : TapView) (state : r.state = .active) (own : r.ident = x) :
    resolve v x r =
      if wrongDirection v.mode v.direction then .error .direction else resolveDirection v r := by
  rw [resolve, if_neg (by simp [state, own]), if_neg (by simp [state]), resolveDirection]
  cases v.direction <;> rfl

theorem wrongDirection_iff (m : Mode) (d : Direction) :
    wrongDirection m d = true ↔ m = .entry ∧ d = .exit ∨ m = .exit ∧ d = .entry := by
  cases m <;> cases d <;> simp [wrongDirection]

theorem resolve_entry {x : Ident} {r : Record} {v : TapView} (state : r.state = .active) (own : r.ident = x)
    (direction : v.direction = .entry) (mode : v.mode ≠ .exit) : resolve v x r = resolveEntry v r := by
  have right : ¬ wrongDirection v.mode v.direction = true := by simp [wrongDirection_iff, direction, mode]
  rw [resolve_active v state own, if_neg right, resolveDirection, if_pos direction]

theorem resolve_exit {x : Ident} {r : Record} {v : TapView} (state : r.state = .active) (own : r.ident = x)
    (direction : v.direction = .exit) (mode : v.mode ≠ .entry) : resolve v x r = resolveExit v r := by
  have right : ¬ wrongDirection v.mode v.direction = true := by simp [wrongDirection_iff, direction, mode]
  rw [resolve_active v state own, if_neg right, resolveDirection, if_neg (by simp [direction])]

/-! ## The entry (R108 to R113) -/

theorem passbackRefuses_iff (v : TapView) (r : Record) :
    passbackRefuses v r = true ↔
      r.trip = .within ∧ ((v.now.toNat : Int) - r.entryStamp.toNat).toNat < v.entry.passback.toNat := by
  simp [passbackRefuses, elapsedNat, elapsedFrom]

theorem overdrawn_iff (v : TapView) (b : Int) (fare : Half) :
    overdrawn v b fare = true ↔ b - fare.toNat < -(v.entry.overdraft.toNat : Int) := by
  simp [overdrawn]

theorem passbackRefuses_of_late {v : TapView} {r : Record}
    (h : r.trip = .within → v.entry.passback.toNat ≤ ((v.now.toNat : Int) - r.entryStamp.toNat).toNat) :
    passbackRefuses v r = false := by
  rw [Bool.eq_false_iff, ne_eq, passbackRefuses_iff]
  exact fun ⟨within, early⟩ => absurd early (Nat.not_lt.mpr (h within))

theorem not_overdrawn_of_solvent {v : TapView} {r : Record}
    (h : r.trip = .within →
      -(v.entry.overdraft.toNat : Int) ≤
        r.balance - (if r.trip = .within then (v.entry.unmatched.toNat : Int) else 0)) :
    (r.trip == .within && overdrawn v r.balance v.entry.unmatched) = false := by
  rw [Bool.eq_false_iff, ne_eq, Bool.and_eq_true, beq_iff_eq, overdrawn_iff]
  intro ⟨within, short⟩
  have solvent := h within
  rw [if_pos within] at solvent
  exact absurd short (Int.not_lt.mpr solvent)

/-- R109: the closed copy. -/
theorem closeTrip_eq (v : TapView) (r : Record) :
    closeTrip v r =
      { r with
        trip := .out,
        balance := r.balance - (if r.trip = .within then (v.entry.unmatched.toNat : Int) else 0) } := by
  rw [closeTrip]
  by_cases open_ : r.trip = .within
  · rw [if_pos open_, if_pos open_]
  · have out : r.trip = .out := by
      cases trip : r.trip with
      | out => rfl
      | within => exact absurd trip open_
    rw [if_neg open_, if_neg open_, Int.sub_zero, ← out]

/-- R110: a refill reaches the tokens and their mark alone. -/
theorem refill_eq (v : TapView) (r : Record) :
    refill v r = { r with tokens := (refill v r).tokens, refillMark := (refill v r).refillMark } := by
  unfold refill
  dsimp only
  split
  · rfl
  · split <;> rfl

/-- R108 to R110: an entry past the passback time and the closing of its trip comes to the tokens. -/
theorem resolveEntry_solvent {v : TapView} {r : Record} (passback : passbackRefuses v r = false)
    (solvent : (r.trip == .within && overdrawn v r.balance v.entry.unmatched) = false) :
    resolveEntry v r =
      if (refill v (closeTrip v r)).tokens.val = 0 then .error .velocity
      else if !entryPass v && (closeTrip v r).balance < v.entry.minEntry.toNat then .error .lowBalance
      else
        .ok
          { record := acceptedUpdates v (openTrip v (refill v (closeTrip v r))), fare := closingFare v r,
            paid := none } := by
  rw [resolveEntry, if_neg (by simp [passback]), if_neg (by simp [solvent])]
  dsimp only
  rw [refill_balance]

theorem validOn_iff (v : TapView) (p : ProductEntry) : p.validOn (dayOf v.now) = true ↔ validToday v p := by
  rw [ProductEntry.validOn, Bool.and_eq_true, decide_eq_true_iff, decide_eq_true_iff]
  rfl

theorem entryPass_iff (v : TapView) :
    entryPass v = true ↔
      ∃ p, p ∈ v.products ∧ p.kind = .periodPass ∧ validToday v p ∧ p.zoneMask.getLsbD v.group.val = true := by
  simp only [entryPass, List.any_eq_true, Bool.and_eq_true, beq_iff_eq, validOn_iff, ProductEntry.holds, and_assoc]

/-- Settles O28: the stages of an entry, in order. -/
theorem entryStages : Obligations.EntryStages := by
  refine ⟨fun v x r => ⟨resolve_notEnrolled v, resolve_blocked v, fun state own => ⟨fun wrong => ?_,
    fun mode direction within early => ?_⟩⟩, fun v x r state own direction mode => ?_, entryPass_iff,
    fun v x r state own direction mode solvent tokens pays => ?_⟩
  · rw [resolve_active v state own, if_pos ((wrongDirection_iff _ _).mpr wrong)]
  · rw [resolve_entry state own direction mode, resolveEntry, if_pos ((passbackRefuses_iff v r).mpr ⟨within, early⟩)]
  · intro left late
    have late := passbackRefuses_of_late late
    have balance : (closeTrip v r).balance = left := congrArg Record.balance (closeTrip_eq v r)
    rw [resolve_entry state own direction mode]
    refine ⟨fun within short => ?_, fun solvent => ⟨fun empty => ?_, fun token noPass poor => ?_⟩⟩
    · have overdrawn : (r.trip == .within && overdrawn v r.balance v.entry.unmatched) = true := by
        simp only [within, beq_self_eq_true, Bool.true_and, overdrawn_iff]
        simpa only [left, within, if_true] using short
      rw [resolveEntry, if_neg (by simp [late]), if_pos overdrawn]
    · rw [resolveEntry_solvent late (not_overdrawn_of_solvent solvent), if_pos empty]
    · rw [resolveEntry_solvent late (not_overdrawn_of_solvent solvent), if_neg token, balance,
        if_pos (by simp [noPass, poor])]
  · have late := passbackRefuses_of_late fun within => (solvent within).1
    have solvent : (r.trip == .within && overdrawn v r.balance v.entry.unmatched) = false :=
      not_overdrawn_of_solvent fun within => by
        rw [if_pos within]
        exact (solvent within).2
    have pays : ¬ (!entryPass v && decide ((closeTrip v r).balance < v.entry.minEntry.toNat)) = true := by
      rw [closeTrip_eq]
      rcases pays with pass | rich
      · simp [pass]
      · simp only [Bool.and_eq_true, decide_eq_true_eq, not_and, Int.not_lt]
        exact fun _ => rich
    rw [resolve_entry state own direction mode, resolveEntry_solvent late solvent, if_neg tokens, if_neg pays, refill_eq,
      closingFare]
    simp only [acceptedUpdates, openTrip]
    rw [closeTrip_eq]

/-! ## The refill (R110) -/

theorem refill_reset {v : TapView} {r : Record}
    (h : v.now.toNat < r.refillMark.toNat ∨ v.entry.burst.toNat ≤ r.tokens.val) :
    refill v r = { r with refillMark := v.now } := by
  have reset : (elapsedFrom v.now r.refillMark < 0 || decide (v.entry.burst.toNat ≤ r.tokens.val)) = true := by
    rw [Bool.or_eq_true, decide_eq_true_iff, decide_eq_true_iff, elapsedFrom]
    omega
  rw [refill]
  exact if_pos reset

/-- R110: the refill below the burst, with the whole periods that have passed. -/
theorem refill_running {v : TapView} {r : Record} (forward : r.refillMark.toNat ≤ v.now.toNat)
    (below : r.tokens.val < v.entry.burst.toNat) :
    refill v r =
      if v.entry.burst.toNat ≤ r.tokens.val + (v.now.toNat - r.refillMark.toNat) / v.entry.refill.toNat then
        { r with tokens := Fin.ofNat 16 v.entry.burst.toNat, refillMark := v.now }
      else
        { r with
          tokens := Fin.ofNat 16 (r.tokens.val + (v.now.toNat - r.refillMark.toNat) / v.entry.refill.toNat),
          refillMark :=
            r.refillMark +
              BitVec.ofNat 32
                ((v.now.toNat - r.refillMark.toNat) / v.entry.refill.toNat * v.entry.refill.toNat) } := by
  have running : ¬ (elapsedFrom v.now r.refillMark < 0 || decide (v.entry.burst.toNat ≤ r.tokens.val)) = true := by
    rw [Bool.or_eq_true, decide_eq_true_iff, decide_eq_true_iff, elapsedFrom]
    omega
  have elapsed : (elapsedFrom v.now r.refillMark).toNat = v.now.toNat - r.refillMark.toNat := by
    rw [elapsedFrom]
    omega
  rw [refill]
  dsimp only
  rw [if_neg running, elapsed]

/-- Settles O29: the refill. -/
theorem tokensRefill : Obligations.TokensRefill := by
  refine fun v r period burst => ⟨refill_reset, fun forward below => ⟨?_, ?_, by rw [refill_eq]⟩⟩
  · rw [refill_running forward below]
    split
    · next full => rw [Nat.min_eq_left full]; exact Nat.mod_eq_of_lt (by omega)
    · next short => rw [Nat.min_eq_right (by omega)]; exact Nat.mod_eq_of_lt (by omega)
  · rw [refill_running forward below]
    split
    · rfl
    · have whole := Nat.div_mul_le_self (v.now.toNat - r.refillMark.toNat) v.entry.refill.toNat
      have fits := v.now.isLt
      rw [BitVec.toNat_add, BitVec.toNat_ofNat, Nat.mod_eq_of_lt (by omega : _ < 2 ^ 32), Nat.mod_eq_of_lt (by omega)]

/-! ## The exit (R114 to R118) -/

theorem matchedExit_iff (v : TapView) (r : Record) :
    matchedExit v r = true ↔
      r.trip = .within ∧ ((v.now.toNat : Int) - r.entryStamp.toNat).toNat < v.entry.maxTrip.toNat := by
  simp [matchedExit, elapsedNat, elapsedFrom]

theorem coversTrip_iff (v : TapView) (r : Record) (p : ProductEntry) : coversTrip v r p = true ↔ coversBoth v r p := by
  rw [coversTrip, Bool.and_eq_true, Bool.and_eq_true, validOn_iff, coversBoth, and_assoc]
  rfl

/-- The first entry of a list that passes a test. -/
theorem findIdx?_first {α : Type} {l : List α} {p : α → Bool} {k : Nat} {x : α} (here : l[k]? = some x) (holds : p x = true)
    (first : ∀ j y, j < k → l[j]? = some y → ¬ p y = true) : l.findIdx? p = some k := by
  obtain ⟨bound, rfl⟩ := List.getElem?_eq_some_iff.mp here
  exact List.findIdx?_eq_some_iff_getElem.mpr
    ⟨bound, holds, fun j lt => first j l[j] lt (List.getElem?_eq_getElem _)⟩

/-- R116: the first PERIOD PASS that covers the trip pays. -/
theorem payingProduct_pass {v : TapView} {r : Record} {k : Nat} {p : ProductEntry} (here : v.products[k]? = some p)
    (pays : p.kind = .periodPass ∧ coversBoth v r p)
    (first : ∀ j q, j < k → v.products[j]? = some q → ¬ (q.kind = .periodPass ∧ coversBoth v r q)) :
    payingProduct v r = some (k, { p with uses := p.uses + 1 }) := by
  have found := findIdx?_first (p := fun p => p.kind == .periodPass && coversTrip v r p) here
    (by simpa [coversTrip_iff] using pays) (fun j q lt at' => by simpa [coversTrip_iff] using first j q lt at')
  rw [payingProduct, found]
  simp only [here, Option.map_some]

theorem payingProduct_noPass {v : TapView} {r : Record}
    (none : ∀ p, p ∈ v.products → ¬ (p.kind = .periodPass ∧ coversBoth v r p)) :
    v.products.findIdx? (fun p => p.kind == .periodPass && coversTrip v r p) = Option.none :=
  List.findIdx?_eq_none_iff.mpr fun p mem => by simpa [coversTrip_iff, Bool.eq_false_iff] using none p mem

/-- R116: without a pass, the first RIDE BUNDLE with a ride left pays. -/
theorem payingProduct_ride {v : TapView} {r : Record} {k : Nat} {p : ProductEntry}
    (none : ∀ p, p ∈ v.products → ¬ (p.kind = .periodPass ∧ coversBoth v r p)) (here : v.products[k]? = some p)
    (pays : p.kind = .rideBundle ∧ coversBoth v r p ∧ p.rides ≠ 0)
    (first : ∀ j q, j < k → v.products[j]? = some q → ¬ (q.kind = .rideBundle ∧ coversBoth v r q ∧ q.rides ≠ 0)) :
    payingProduct v r = some (k, { p with rides := p.rides - 1, uses := p.uses + 1 }) := by
  have found := findIdx?_first (p := fun p => p.kind == .rideBundle && coversTrip v r p && p.rides != 0) here
    (by simpa [coversTrip_iff, and_assoc] using pays)
    (fun j q lt at' => by simpa [coversTrip_iff, and_assoc] using first j q lt at')
  rw [payingProduct, payingProduct_noPass none]
  simp only [found, here, Option.map_some]

theorem payingProduct_none {v : TapView} {r : Record}
    (none : ∀ p, p ∈ v.products → ¬ (p.kind = .periodPass ∧ coversBoth v r p))
    (noRide : ∀ p, p ∈ v.products → ¬ (p.kind = .rideBundle ∧ coversBoth v r p ∧ p.rides ≠ 0)) :
    payingProduct v r = Option.none := by
  have found : v.products.findIdx? (fun p => p.kind == .rideBundle && coversTrip v r p && p.rides != 0) = Option.none :=
    List.findIdx?_eq_none_iff.mpr fun p mem => by simpa [coversTrip_iff, Bool.eq_false_iff, and_assoc] using noRide p mem
  rw [payingProduct, payingProduct_noPass none]
  simp only [found]

theorem resolveExit_paid {v : TapView} {r : Record} {p : Nat × ProductEntry} (matched : matchedExit v r = true)
    (pays : payingProduct v r = some p) :
    resolveExit v r = .ok { record := closedRecord v r, fare := 0, paid := some p } := by
  rw [resolveExit, if_pos matched, pays]

/-- R115, R117: the fare of an exit that no product pays. -/
theorem resolveExit_debit {v : TapView} {r : Record} (h : matchedExit v r = false ∨ payingProduct v r = none) :
    resolveExit v r = debit v r (if matchedExit v r = true then matchedFare v r else v.entry.unmatched) := by
  rw [resolveExit]
  by_cases matched : matchedExit v r = true
  · have nobody : payingProduct v r = none := h.resolve_left (by simp [matched])
    rw [if_pos matched, if_pos matched, nobody]
  · rw [if_neg matched, if_neg matched]

/-- R115: the fare of an exit as a number. -/
theorem exitFare_toNat (v : TapView) (r : Record) :
    (if matchedExit v r = true then matchedFare v r else v.entry.unmatched).toNat =
      if matchedExit v r = true then
        min 65535 ((v.fares.baseFare r.entryGroup v.group).toNat * v.entry.percent.toNat / 100)
      else v.entry.unmatched.toNat := by
  split
  · rw [matchedFare, BitVec.toNat_ofNat]
    exact Nat.mod_eq_of_lt (by omega)
  · rfl

/-- Settles O30: who pays an exit, and what an exit costs. -/
theorem pricedExits : Obligations.PricedExits := by
  refine ⟨fun v r => ⟨matchedExit_iff v r, fun k p => payingProduct_pass,
    fun none => ⟨fun k p => payingProduct_ride none, payingProduct_none none⟩⟩,
    fun v x r state own direction mode => ⟨fun p matched pays => ?_, fun unpaid => ?_⟩⟩
  · rw [resolve_exit state own direction mode, resolveExit_paid matched pays]
    rfl
  · rw [resolve_exit state own direction mode, resolveExit_debit unpaid, ← exitFare_toNat, BitVec.ofNat_toNat,
      BitVec.setWidth_eq]
    refine ⟨fun solvent => ?_, fun short => ?_⟩
    · have solvent : ¬ overdrawn v r.balance
          (if matchedExit v r = true then matchedFare v r else v.entry.unmatched) = true := by
        rw [overdrawn_iff]
        exact Int.not_lt.mpr solvent
      rw [debit, if_neg solvent]
      rfl
    · rw [debit, if_pos ((overdrawn_iff _ _ _).mpr short)]

end Sys2Proof.Machine
end

section
/-! Record commands: how a block's command reaches its record (R148 to R150), with the settling of O45. -/

namespace Sys2Proof.Machine

/-! ## The states of a record command -/

/-- R148: a taken block with its account key. -/
def recordTaken (i : Nat) (o : Op) (s : State) : State :=
  { s with
    change :=
      { s.change with
        block := parseBlock o.words, heldLink := (parseBlock o.words).link, key := blockKey o s },
    port := { s.port with inFlight := s.port.inFlight.eraseIdx i } }

/-- R149: a taken block whose command waits for its record. -/
def recordWaits (i : Nat) (o : Op) (s : State) : State :=
  { s with
    change :=
      { s.change with
        state := .waiting, block := parseBlock o.words, heldLink := (parseBlock o.words).link, key := blockKey o s },
    port := { s.port with inFlight := s.port.inFlight.eraseIdx i } }

/-- R150: a taken block whose command is taken at its RESIDENT slot. -/
def recordServed (k : SlotNo) (i : Nat) (o : Op) (s : State) : State :=
  { s with
    change :=
      { s.change with
        block := parseBlock o.words, heldLink := (parseBlock o.words).link, key := blockKey o s },
    port := { s.port with inFlight := s.port.inFlight.eraseIdx i }, recency := k :: s.recency.filter (· != k) }

section
variable (i : Nat) (o : Op) (s : State) (k : SlotNo)

theorem recordTaken_eq :
    (blockTaken i o s).modChange (fun u => { u with key := blockKey o s }) = recordTaken i o s := rfl

theorem recordWaits_eq : (recordTaken i o s).modChange (fun u => { u with state := .waiting }) = recordWaits i o s := rfl

theorem recordServed_eq : touch k (recordTaken i o s) = recordServed k i o s := rfl

@[simp] theorem recordServed_block : (recordServed k i o s).change.block = parseBlock o.words := rfl

@[simp] theorem keyResult_recordServed : keyResult (recordServed k i o s) = (blockKey o s).zeroExtend 32 := rfl

@[simp] theorem recordServed_slot (j : SlotNo) : (recordServed k i o s).slot j = s.slot j := rfl

theorem recordServed_frame : commandFrame k s (recordServed k i o s) :=
  ⟨fun _ _ => rfl, rfl, rfl, rfl, rfl, rfl, rfl, keepsHost_refl s⟩

end

/-! ## The way to the record (R149, R150) -/

theorem runCommand_record {c : ChangeCommand} (h : c ∈ recordCommands) (s : State) :
    runCommand c s = requestRecord c s := by
  simp only [recordCommands, List.mem_cons, List.not_mem_nil, or_false] at h
  rcases h with rfl | rfl | rfl | rfl | rfl | rfl | rfl | rfl | rfl <;> rfl

/-- R148, R149, R21: a record command asks the cache for its key. -/
theorem requestRecord_taken (c : ChangeCommand) (i : Nat) (o : Op) (s : State) :
    requestRecord c (blockTaken i o s) =
      (findSlot (blockKey o s) s).elim (miss (blockKey o s) .change (recordWaits i o s)) fun j =>
        if (s.slot j).state = .resident then applyCommand c j (recordTaken i o s)
        else joinWaiting j .change (recordWaits i o s) := by
  cases found : findSlot (blockKey o s) s with
  | none =>
    have found : findSlot (blockKey o s) (recordTaken i o s) = none := found
    simp only [requestRecord]
    rw [show keyOf (blockTaken i o s).engine.keyShape (blockTaken i o s).change.block.ident = blockKey o s from rfl,
      recordTaken_eq, found]
    rfl
  | some j =>
    have found : findSlot (blockKey o s) (recordTaken i o s) = some j := found
    simp only [requestRecord]
    rw [show keyOf (blockTaken i o s).engine.keyShape (blockTaken i o s).change.block.ident = blockKey o s from rfl,
      recordTaken_eq, found]
    simp only [beq_iff_eq, recordWaits_eq, Option.elim_some]
    rfl

theorem requestRecord_resident (c : ChangeCommand) {i : Nat} {o : Op} {s : State} {k : SlotNo}
    (found : findResident (blockKey o s) s = some k) :
    requestRecord c (blockTaken i o s) = applyCommand c k (recordTaken i o s) := by
  obtain ⟨slot, resident⟩ := Option.filter_eq_some_iff.mp found
  rw [requestRecord_taken, slot, Option.elim_some, if_pos (by simpa using resident)]

theorem requestRecord_waits (c : ChangeCommand) {i : Nat} {o : Op} {s : State} {k : SlotNo}
    (found : findSlot (blockKey o s) s = some k) (other : (s.slot k).state ≠ .resident) :
    requestRecord c (blockTaken i o s) = joinWaiting k .change (recordWaits i o s) := by
  rw [requestRecord_taken, found, Option.elim_some, if_neg other]

theorem requestRecord_misses (c : ChangeCommand) {i : Nat} {o : Op} {s : State}
    (absent : findSlot (blockKey o s) s = none) :
    requestRecord c (blockTaken i o s) = miss (blockKey o s) .change (recordWaits i o s) := by
  rw [requestRecord_taken, absent, Option.elim_none]

/-- R150: a command that its identity and state check refuses. -/
theorem applyCommand_refused {c : ChangeCommand} {i : Nat} {o : Op} {s : State} {k : SlotNo} {st : Status}
    (h : identityCheck c (parseBlock o.words).ident (s.slot k).record = some st) :
    applyCommand c k (recordTaken i o s) = storeStatus st ((blockKey o s).zeroExtend 32) (recordServed k i o s) := by
  have h : identityCheck c (recordTaken i o s).change.block.ident ((recordTaken i o s).slot k).record = some st := h
  simp only [applyCommand, h]
  rfl

theorem applyCommand_passed {c : ChangeCommand} {i : Nat} {o : Op} {s : State} {k : SlotNo}
    (h : identityCheck c (parseBlock o.words).ident (s.slot k).record = none) :
    applyCommand c k (recordTaken i o s) = applyChecked c k (recordServed k i o s) := by
  have h : identityCheck c (recordTaken i o s).change.block.ident ((recordTaken i o s).slot k).record = none := h
  simp only [applyCommand, h]
  rfl

/-- R150: the event of a record command that passes its check. -/
theorem exec_of_recordReady {c : ChangeCommand} {i : Nat} {w : Word} {p : BitVec 4} {k : SlotNo} {s : State} {o : Op}
    (ready : recordReady c i w p k s o) (record : c ∈ recordCommands) :
    exec (c.instr i w p) s = .next (settle (applyChecked c k (recordServed k i o s))) := by
  obtain ⟨ready, found, passed⟩ := ready
  rw [exec_of_blockReady ready, runCommand_record record, requestRecord_resident c found, applyCommand_passed passed]

/-- R159: a status stored by a record command. -/
theorem blockCompletes_recordServed (c : Status) (result : Word) {i : Nat} {o : Op} {s t : State} {k : SlotNo}
    (change : t.change = (recordServed k i o s).change) (port : t.port = (recordServed k i o s).port) :
    blockCompletes (blockKey o s) c result i o s (storeStatus c result t) := by
  rw [storeStatus_eq]
  simp only [blockCompletes, State.setPort_change, State.setChange_change, State.setPort_port, change, port]
  exact ⟨rfl, rfl⟩

/-! ## Refused and waiting commands -/

theorem identityCheck_enroll {x : Ident} {r : Record} (h : r.state ≠ .empty) :
    identityCheck .enroll x r = some (if r.ident = x then .exists_ else .keyClash) := by
  rw [identityCheck, if_pos rfl, if_neg h]
  split <;> rfl

theorem identityCheck_other {c : ChangeCommand} {x : Ident} {r : Record} (h : c ≠ .enroll) :
    identityCheck c x r =
      if r.state = .empty then some .notEnrolled else if r.ident ≠ x then some .idMismatch else none := if_neg h

/-- R150: what a refused record command leaves. -/
theorem exec_record_refused {c : ChangeCommand} {i : Nat} {w : Word} {p : BitVec 4} {k : SlotNo} {s : State} {o : Op}
    {st : Status} (ready : blockReady c i w p s o) (record : c ∈ recordCommands)
    (found : findResident (blockKey o s) s = some k)
    (refused : identityCheck c (parseBlock o.words).ident (s.slot k).record = some st) :
    ∃ t, exec (c.instr i w p) s = .next (settle t) ∧
      blockCompletes (blockKey o s) st ((blockKey o s).zeroExtend 32) i o s t ∧
      t.slots = s.slots ∧ t.recency = k :: s.recency.filter (· != k) ∧ t.pool = s.pool ∧ t.marks = s.marks ∧
      commandFrame k s t := by
  refine ⟨storeStatus st ((blockKey o s).zeroExtend 32) (recordServed k i o s), ?_,
    blockCompletes_recordServed st _ rfl rfl, rfl, rfl, rfl, rfl, recordServed_frame i o s k⟩
  rw [exec_of_blockReady ready, runCommand_record record, requestRecord_resident c found, applyCommand_refused refused]

/-- R41: a change request joins the slot-wait list. -/
theorem joinSlotWait_change (s : State) : joinSlotWait .change s = s.setSlotWait (s.slotWait ++ [.change]) := rfl

theorem waiterKey_recordWaits {i : Nat} {o : Op} {s : State} {v : Waiter} (h : v ≠ .change) :
    waiterKey (recordWaits i o s) v = waiterKey s v := by
  cases v with
  | tap c => rfl
  | change => exact absurd rfl h

/-- R30: a fetch, as one state. -/
theorem startFetch_eq (i : SlotNo) (k : Key) (ws : List Waiter) (s : State) :
    startFetch i k ws s =
      { s with
        slots := s.slots.set i.val { Slot.unused with state := .fetching, key := k, waiting := ws } i.isLt,
        counts := { s.counts with misses := s.counts.misses + 1 },
        port := { s.port with list := s.port.list ++ [.fetch i k (homeAddr s k)] } } := rfl

/-- R30, R33: a fetch in a slot evicted clean for it. -/
theorem startFetch_cleanlyEvicted (i : SlotNo) (k : Key) (ws : List Waiter) (s : State) :
    startFetch i k ws (cleanlyEvicted i s) =
      { s with
        slots := s.slots.set i.val { Slot.unused with state := .fetching, key := k, waiting := ws } i.isLt,
        counts :=
          { s.counts with misses := s.counts.misses + 1, cleanEvictions := s.counts.cleanEvictions + 1 },
        recency := s.recency.filter (· != i),
        pool := { s.pool with free := (s.slot i).cells.reverse ++ s.pool.free },
        port := { s.port with list := s.port.list ++ [.fetch i k (homeAddr s k)] } } := by
  simp only [startFetch, ask, State.modPort, State.setPort, State.modCounts, State.setCounts, State.setSlot,
    State.setSlots, cleanlyEvicted, set_set_eq]
  rfl

theorem setAwait_change (b : Bool) (s : State) : setAwait b .change s = s := rfl

/-- R34, R42: a dirty eviction beside a change request that joins the slot-wait list. -/
theorem dirtilyEvicted_recordWaits (k : SlotNo) (i : Nat) (o : Op) (s : State) (ws : List Waiter) :
    dirtilyEvicted k ((recordWaits i o s).setSlotWait ws) =
      { dirtilyEvicted k s with
        change := (recordWaits i o s).change, slotWait := ws,
        port := { (dirtilyEvicted k s).port with inFlight := s.port.inFlight.eraseIdx i } } := rfl

theorem recordWaits_waits_victim (q : Slot → Bool) (i : Nat) (o : Op) (s : State) (ws : List Waiter) :
    victim q ((recordWaits i o s).setSlotWait ws) = victim q s := rfl

/-- Settles O45: a record command that waits, and one that its check refuses. -/
theorem recordCommandsNotApplied : Obligations.RecordCommandsNotApplied := by
  refine ⟨fun s i w p o => ?_, fun s i w p o k st found => ?_⟩
  · intro waits c record ready
    have runs : exec (c.instr i w p) s = .next (settle (requestRecord c (blockTaken i o s))) := by
      rw [exec_of_blockReady ready, runCommand_record record]
    refine ⟨fun k found other => ?_, fun absent unlisted => ?_, fun absent ⟨v, listed, other, carries⟩ => ?_⟩
    · rw [requestRecord_waits c found other, joinWaiting_eq] at runs
      exact ⟨_, runs, ⟨rfl, rfl, rfl, rfl, rfl, rfl, keepsHost_refl s⟩, rfl, rfl, rfl, rfl, rfl, rfl⟩
    · rw [requestRecord_misses c absent] at runs
      have unlisted : ∀ v, v ∈ (recordWaits i o s).slotWait → waiterKey (recordWaits i o s) v ≠ blockKey o s :=
        fun v listed => by
          rw [waiterKey_recordWaits (unlisted v listed).1]
          exact (unlisted v listed).2
      refine ⟨fun k free => ?_, fun k full clean => ?_, fun full dirtyOnly => ?_⟩
      · have free : firstFree (recordWaits i o s) = some k := free
        rw [miss_free _ unlisted free, setAwait_change, startFetch_eq] at runs
        exact ⟨_, runs, ⟨rfl, rfl, rfl, rfl, rfl, rfl, keepsHost_refl s⟩, rfl, rfl, rfl, rfl, rfl, rfl⟩
      · have full : firstFree (recordWaits i o s) = none := full
        have clean : victim Slot.cleanEligible (recordWaits i o s) = some k := clean
        rw [miss_clean _ unlisted full clean, setAwait_change, startFetch_cleanlyEvicted] at runs
        exact ⟨_, runs, ⟨rfl, rfl, rfl, rfl, rfl, rfl, keepsHost_refl s⟩, rfl, rfl, rfl, rfl, rfl, get_set_eq _ k _,
          fun j apart => get_set_ne _ _ apart⟩
      · have full : firstFree (recordWaits i o s) = none := full
        have dirtyOnly : victim Slot.cleanEligible (recordWaits i o s) = none := dirtyOnly
        rw [miss_full _ unlisted full dirtyOnly, joinSlotWait_change] at runs
        cases dirty : victim Slot.dirtyEligible s with
        | none =>
          rw [seekDirtyVictim_none _ ((recordWaits_waits_victim ..).trans dirty)] at runs
          exact ⟨_, runs, ⟨rfl, rfl, rfl, rfl, rfl, rfl, keepsHost_refl s⟩, rfl, rfl, fun _ => ⟨rfl, rfl, rfl⟩, nofun⟩
        | some k =>
          rw [seekDirtyVictim_some _ ((recordWaits_waits_victim ..).trans dirty), dirtilyEvicted_recordWaits] at runs
          refine ⟨_, runs, ⟨rfl, rfl, rfl, rfl, rfl, rfl, keepsHost_refl s⟩, rfl, rfl, nofun, fun j same => ?_⟩
          obtain rfl := Option.some.inj same
          exact ⟨rfl, rfl, rfl, rfl, rfl⟩
    · have listed : ∃ v, v ∈ (recordWaits i o s).slotWait ∧ waiterKey (recordWaits i o s) v = blockKey o s :=
        ⟨v, listed, (waiterKey_recordWaits other).trans carries⟩
      rw [requestRecord_misses c absent, miss_listed _ listed, joinSlotWait_change] at runs
      exact ⟨_, runs, ⟨rfl, rfl, rfl, rfl, rfl, rfl, keepsHost_refl s⟩, rfl, rfl, rfl, rfl, rfl, rfl, rfl⟩
  · intro x r refused
    refine ⟨fun clash ready => ?_, fun clash => ?_⟩
    · refine exec_record_refused ready (by decide) found ?_
      rcases clash with ⟨held, own, rfl⟩ | ⟨held, other, rfl⟩
      · rw [identityCheck_enroll held, if_pos own]
      · rw [identityCheck_enroll held, if_neg other]
    · have check (c : ChangeCommand) (h : c ≠ .enroll) : identityCheck c x r = some st := by
        rw [identityCheck_other h]
        rcases clash with ⟨empty, rfl⟩ | ⟨held, other, rfl⟩
        · rw [if_pos empty]
        · rw [if_neg held, if_pos other]
      exact ⟨fun ready => exec_record_refused ready (by decide) found (check _ nofun),
        fun ready => exec_record_refused ready (by decide) found (check _ nofun),
        fun ready => exec_record_refused ready (by decide) found (check _ nofun),
        fun ready => exec_record_refused ready (by decide) found (check _ nofun),
        fun ready => exec_record_refused ready (by decide) found (check _ nofun),
        fun ready => exec_record_refused ready (by decide) found (check _ nofun),
        fun ready => exec_record_refused ready (by decide) found (check _ nofun),
        fun ready => exec_record_refused ready (by decide) found (check _ nofun)⟩

end Sys2Proof.Machine
end

section
/-! The record commands that write fields (R152, R153, R155), with the settling of O47. -/

namespace Sys2Proof.Machine

/-! ## What a record command leaves -/

/-- R150, R159: a command that stores its status and leaves the record. -/
theorem recordServed_stored (c : Status) (result : Word) (k : SlotNo) (i : Nat) (o : Op) (s : State) :
    blockCompletes (blockKey o s) c result i o s (storeStatus c result (recordServed k i o s)) ∧
      (storeStatus c result (recordServed k i o s)).slots = s.slots ∧
      (storeStatus c result (recordServed k i o s)).recency = k :: s.recency.filter (· != k) ∧
      (storeStatus c result (recordServed k i o s)).pool = s.pool ∧
      (storeStatus c result (recordServed k i o s)).marks = s.marks ∧
      commandFrame k s (storeStatus c result (recordServed k i o s)) :=
  ⟨blockCompletes_recordServed c result rfl rfl, rfl, rfl, rfl, rfl, recordServed_frame i o s k⟩

theorem amendRecord_eq (k : SlotNo) (f : Record → Record) (s : State) :
    amendRecord k f s =
      { s with
        slots := s.slots.set k.val { s.slot k with record := f (s.slot k).record, dirty := true } k.isLt } := rfl

/-- R150, R159: a command that changes the record alone. -/
theorem recordServed_amended (c : Status) (result : Word) (f : Record → Record) (k : SlotNo) (i : Nat) (o : Op)
    (s : State) :
    blockCompletes (blockKey o s) c result i o s (storeStatus c result (amendRecord k f (recordServed k i o s))) ∧
      (storeStatus c result (amendRecord k f (recordServed k i o s))).slot k =
        { s.slot k with record := f (s.slot k).record, dirty := true } ∧
      (storeStatus c result (amendRecord k f (recordServed k i o s))).recency = k :: s.recency.filter (· != k) ∧
      (storeStatus c result (amendRecord k f (recordServed k i o s))).pool = s.pool ∧
      (storeStatus c result (amendRecord k f (recordServed k i o s))).marks = s.marks ∧
      commandFrame k s (storeStatus c result (amendRecord k f (recordServed k i o s))) :=
  ⟨blockCompletes_recordServed (k := k) c result rfl rfl, get_set_eq _ k _, rfl, rfl, rfl,
    fun _ apart => get_set_ne _ _ apart, rfl, rfl, rfl, rfl, rfl, rfl, keepsHost_refl s⟩

/-- R155, R159: a command that changes the record and removes a mark. -/
theorem removeMark_stands {key : Key} {c : Status} {result : Word} {k : SlotNo} {i : Nat} {o : Op} {s t : State} {x : Slot}
    (y : Ident)
    (h : blockCompletes key c result i o s t ∧ t.slot k = x ∧ t.recency = k :: s.recency.filter (· != k) ∧
      t.pool = s.pool ∧ t.marks = s.marks ∧ commandFrame k s t) :
    blockCompletes key c result i o s (removeMark y t) ∧ (removeMark y t).slot k = x ∧
      (removeMark y t).recency = k :: s.recency.filter (· != k) ∧ (removeMark y t).pool = s.pool ∧
      (∀ m, (removeMark y t).marks.get m = if s.marks.get m = some y then none else s.marks.get m) ∧
      commandFrame k s (removeMark y t) := by
  obtain ⟨completes, slot, recency, pool, marks, frame⟩ := h
  exact ⟨completes, slot, recency, pool, fun m => by rw [removeMark_marks_get, marks], frame⟩

/-! ## AMEND (R152) -/

theorem low_nibble_iff (m : Byte) : m &&& 0xF0#8 = 0 ↔ m.toNat ≤ 15 := by
  revert m
  decide

theorem amendValid_iff (b : Block) :
    amendValid b = true ↔
      (1 ≤ (byteAt b.payload 0).toNat ∧ (byteAt b.payload 0).toNat ≤ 15) ∧
        ((byteAt b.payload 0)[0] = true → (byteAt b.payload 1).toNat ≤ 7) := by
  have nonzero : byteAt b.payload 0 ≠ 0 ↔ 1 ≤ (byteAt b.payload 0).toNat := by
    rw [ne_eq, ← BitVec.toNat_inj, Nat.one_le_iff_ne_zero]
    rfl
  simp only [amendValid, Bool.and_eq_true, bne_iff_ne, nonzero, beq_iff_eq, low_nibble_iff, Bool.or_eq_true,
    Bool.not_eq_true', decide_eq_true_eq, Nat.lt_succ_iff]
  cases (byteAt b.payload 0)[0] <;> simp

/-! ## ADJUST (R153) -/

theorem applyAdjust_inRange {k : SlotNo} {s : State} {new : Int}
    (sum : new = (s.slot k).record.balance + (wordAt s.change.block.payload 0).toInt)
    (h : balanceInRange new = true) :
    applyAdjust k s =
      storeStatus .ok (BitVec.ofInt 32 new) (amendRecord k (fun r => { r with balance := new }) s) := by
  subst sum
  exact if_pos h

theorem applyAdjust_outside {k : SlotNo} {s : State} {new : Int}
    (sum : new = (s.slot k).record.balance + (wordAt s.change.block.payload 0).toInt)
    (h : ¬ balanceInRange new = true) :
    applyAdjust k s = storeStatus .balanceLimit (BitVec.ofInt 32 (s.slot k).record.balance) s := by
  subst sum
  exact if_neg h

/-- Settles O47: AMEND, ADJUST, BLOCK and UNBLOCK. -/
theorem recordFieldCommands : Obligations.RecordFieldCommands := by
  refine ⟨fun s i w p o k => ?_, fun s i w p o k => ?_⟩
  · intro b mask r key cls new kept
    refine ⟨fun ready => ?_, fun ready => ?_⟩
    · have runs : exec (.amend i w p) s = .next (settle (applyAmend k (recordServed k i o s))) :=
        exec_of_recordReady ready (by decide)
      refine ⟨fun some_ low inRange => ?_, fun bad => ?_⟩
      · have valid : amendValid (recordServed k i o s).change.block = true :=
          (amendValid_iff _).mpr ⟨⟨some_, low⟩, inRange⟩
        obtain ⟨completes, slot, keeps⟩ :=
          recordServed_amended .ok key (amendedRecord b (recordServed k i o s)) k i o s
        rw [applyAmend, if_pos valid] at runs
        refine ⟨_, runs, completes, keeps, slot.trans ?_⟩
        rw [amendedRecord_eq]
        rfl
      · have invalid : ¬ amendValid (recordServed k i o s).change.block = true := by
          rw [amendValid_iff]
          intro ⟨⟨some_, low⟩, inRange⟩
          rcases bad with zero | high | ⟨flag, out⟩
          · exact absurd some_ (by rw [recordServed_block, show byteAt b.payload 0 = 0 from zero]; decide)
          · exact absurd low (Nat.not_le.mpr high)
          · exact absurd (inRange flag) (Nat.not_le.mpr out)
        obtain ⟨completes, slots, keeps⟩ := recordServed_stored .badArgument key k i o s
        rw [applyAmend, if_neg invalid] at runs
        exact ⟨_, runs, completes, keeps, congrArg (fun v => v.get k) slots⟩
    · have runs : exec (.adjust i w p) s = .next (settle (applyAdjust k (recordServed k i o s))) :=
        exec_of_recordReady ready (by decide)
      have sum : new = ((recordServed k i o s).slot k).record.balance +
          (wordAt (recordServed k i o s).change.block.payload 0).toInt := rfl
      refine ⟨fun low high => ?_, fun out => ?_⟩
      · obtain ⟨completes, slot, keeps⟩ :=
          recordServed_amended .ok (BitVec.ofInt 32 new) (fun r => { r with balance := new }) k i o s
        rw [applyAdjust_inRange sum ((balanceInRange_iff new).mpr ⟨low, high⟩)] at runs
        exact ⟨_, runs, completes, keeps, slot⟩
      · obtain ⟨completes, slots, keeps⟩ := recordServed_stored .balanceLimit (BitVec.ofInt 32 r.balance) k i o s
        have outside : ¬ balanceInRange new = true := by
          rw [balanceInRange_iff]
          omega
        rw [applyAdjust_outside sum outside] at runs
        exact ⟨_, runs, completes, keeps, congrArg (fun v => v.get k) slots⟩
  · intro key
    refine ⟨fun ready => ?_, fun ready => ?_⟩
    · exact ⟨_, exec_of_recordReady ready (by decide), recordServed_amended .ok _ _ k i o s⟩
    · have stands := removeMark_stands (parseBlock o.words).ident
        (recordServed_amended .ok key (fun r => { r with state := .active }) k i o s)
      exact ⟨_, exec_of_recordReady ready (by decide), stands⟩

end Sys2Proof.Machine
end

section
/-! Writes, evictions and returned cells, each as one state. -/

namespace Sys2Proof.Machine

/-- R16, R38: the issue of a write, as one state. -/
theorem issueWrite_eq (i : SlotNo) (s : State) :
    issueWrite i s =
      { s with
        slots :=
          s.slots.set i.val
            { s.slot i with
              record := { (s.slot i).record with generation := (s.slot i).record.generation + 1 }, dirty := false,
              wbFault := false }
            i.isLt,
        port := { s.port with list := s.port.list ++ [writeBackAsked i s] } } := by
  simp only [issueWrite, ask, State.modPort, State.setPort, State.modSlot, State.setSlot, State.setSlots, State.slot,
    get_set_eq, writeBackAsked, State.products, homeAddr]

/-- R38: a flush-type write, as one state. -/
theorem flushWrite_eq (i : SlotNo) (qs : List Requester) (s : State) :
    flushWrite i qs s =
      { s with
        slots :=
          s.slots.set i.val
            { s.slot i with
              record := { (s.slot i).record with generation := (s.slot i).record.generation + 1 }, dirty := false,
              wbFault := false, writeInFlight := true, writeReqs := qs, nextReqs := [] }
            i.isLt,
        port := { s.port with list := s.port.list ++ [writeBackAsked i s] } } := by
  rw [flushWrite, issueWrite_eq]
  simp only [State.modSlot, State.setSlot, State.setSlots, State.slot, get_set_eq, set_set_eq]

/-- R34: the eviction write of a slot, as one state. -/
theorem evictionWrite_eq (i : SlotNo) (qs : List Requester) (s : State) :
    evictionWrite i qs s =
      { s with
        slots :=
          s.slots.set i.val
            { s.slot i with
              record := { (s.slot i).record with generation := (s.slot i).record.generation + 1 }, dirty := false,
              wbFault := false, writeReqs := qs, nextReqs := [] }
            i.isLt,
        counts := { s.counts with dirtyEvictions := s.counts.dirtyEvictions + 1 },
        port := { s.port with list := s.port.list ++ [writeBackAsked i s] } } := by
  rw [evictionWrite, issueWrite_eq]
  simp only [State.modCounts, State.setCounts, State.modSlot, State.setSlot, State.setSlots, State.slot, get_set_eq,
    set_set_eq]

/-- R34, R35: a slot that becomes EVICTING, as one state. -/
theorem beginEvicting_eq (i : SlotNo) (s : State) :
    beginEvicting i s =
      { s with
        slots :=
          s.slots.set i.val { s.slot i with state := .evicting, waiting := [], rescued := false } i.isLt,
        recency := s.recency.filter (· != i) } := rfl

/-- R34, R36, R37: a dirty eviction with its requesters, as one state. -/
theorem dirtyEvict_reqs_eq (i : SlotNo) (qs : List Requester) (s : State) :
    dirtyEvict i qs s =
      { s with
        slots :=
          s.slots.set i.val
            { s.slot i with
              state := .evicting, waiting := [], rescued := false, dirty := false, wbFault := false, writeReqs := qs,
              nextReqs := [],
              record := { (s.slot i).record with generation := (s.slot i).record.generation + 1 } }
            i.isLt,
        recency := s.recency.filter (· != i),
        counts := { s.counts with dirtyEvictions := s.counts.dirtyEvictions + 1 },
        port := { s.port with list := s.port.list ++ [writeBackAsked i s] } } := by
  rw [dirtyEvict, beginEvicting_eq, evictionWrite_eq]
  simp only [State.slot, get_set_eq, set_set_eq, writeBackAsked, State.products]

/-- R35: an eviction owed behind a write in flight, as one state. -/
theorem oweEviction_eq (i : SlotNo) (q : Requester) (s : State) :
    oweEviction i q s =
      { s with
        slots :=
          s.slots.set i.val
            { s.slot i with
              state := .evicting, waiting := [], rescued := false, nextReqs := (s.slot i).nextReqs ++ [q] }
            i.isLt,
        recency := s.recency.filter (· != i) } := by
  rw [oweEviction, beginEvicting_eq]
  simp only [State.modSlot, State.setSlot, State.setSlots, State.slot, get_set_eq, set_set_eq]

/-- R51: a slot's cells returned, as one state. -/
theorem returnCells_eq (i : SlotNo) (s : State) :
    returnCells i s =
      { s with
        slots := s.slots.set i.val { s.slot i with cells := [] } i.isLt,
        pool := { s.pool with free := (s.slot i).cells.reverse ++ s.pool.free } } := rfl

theorem removeMark_eq (x : Ident) (s : State) :
    removeMark x s = { s with marks := s.marks.map fun m => if m = some x then none else m } := rfl

end Sys2Proof.Machine
end

section
/-! RETIRE, FLUSH and FLUSH ALL (R156 to R158), with the settling of O49 and O50. -/

namespace Sys2Proof.Machine

/-! ## RETIRE (R156, R37) -/

/-- R156: the record emptied, its cells returned and its mark removed. -/
def retiredRecord (k : SlotNo) (s : State) : State :=
  { s with
    slots :=
      s.slots.set k.val
        { s.slot k with cells := [], record := Record.empty (s.slot k).record.generation, dirty := true } k.isLt,
    pool := { s.pool with free := (s.slot k).cells.reverse ++ s.pool.free },
    marks := s.marks.map fun m => if m = some (s.slot k).record.ident then none else m }

theorem applyRetire_eq (k : SlotNo) (s : State) :
    applyRetire k s =
      (evictFor k .retire (retiredRecord k s)).modChange fun u => { u with state := .storing } := by
  have emptied : removeMark (s.slot k).record.ident
      (amendRecord k (fun r => Record.empty r.generation) (returnCells k s)) = retiredRecord k s := by
    rw [returnCells_eq, amendRecord_eq, removeMark_eq]
    simp only [State.slot, get_set_eq, set_set_eq, retiredRecord]
  rw [applyRetire, emptied]

/-- R156, R37: RETIRE with no write in flight. -/
theorem applyRetire_idle {k : SlotNo} {s : State} (idle : (s.slot k).writeInFlight = false) :
    applyRetire k s =
      { s with
        slots :=
          s.slots.set k.val
            { s.slot k with
              state := .evicting, record := Record.empty ((s.slot k).record.generation + 1), cells := [],
              dirty := false, wbFault := false, waiting := [], rescued := false, writeReqs := [.retire],
              nextReqs := [] }
            k.isLt,
        pool := { s.pool with free := (s.slot k).cells.reverse ++ s.pool.free },
        marks := s.marks.map fun m => if m = some (s.slot k).record.ident then none else m,
        recency := s.recency.filter (· != k),
        counts := { s.counts with dirtyEvictions := s.counts.dirtyEvictions + 1 },
        change := { s.change with state := .storing },
        port :=
          { s.port with
            list :=
              s.port.list ++
                [.writeBack k (s.slot k).key (homeAddr s (s.slot k).key)
                  (bytesWords (encodeImage (Record.empty ((s.slot k).record.generation + 1)) []))] } } := by
  have slot : (retiredRecord k s).slot k = _ := get_set_eq _ k _
  have idle : ¬ ((retiredRecord k s).slot k).writeInFlight = true := by
    rw [slot]
    simp [idle]
  rw [applyRetire_eq, evictFor, if_neg idle, dirtyEvict_reqs_eq]
  simp only [writeBackAsked, State.products, retiredRecord, State.slot, get_set_eq, set_set_eq]
  rfl

/-- R156, R35: RETIRE behind the write in flight. -/
theorem applyRetire_inFlight {k : SlotNo} {s : State} (writing : (s.slot k).writeInFlight = true) :
    applyRetire k s =
      { s with
        slots :=
          s.slots.set k.val
            { s.slot k with
              state := .evicting, record := Record.empty (s.slot k).record.generation, cells := [], dirty := true,
              waiting := [], rescued := false, nextReqs := (s.slot k).nextReqs ++ [.retire] }
            k.isLt,
        pool := { s.pool with free := (s.slot k).cells.reverse ++ s.pool.free },
        marks := s.marks.map fun m => if m = some (s.slot k).record.ident then none else m,
        recency := s.recency.filter (· != k), change := { s.change with state := .storing } } := by
  have slot : (retiredRecord k s).slot k = _ := get_set_eq _ k _
  have writing : ((retiredRecord k s).slot k).writeInFlight = true := by
    rw [slot]
    exact writing
  rw [applyRetire_eq, evictFor, if_pos writing, oweEviction_eq]
  simp only [retiredRecord, State.slot, get_set_eq, set_set_eq]
  rfl

theorem filter_head_filter (k : SlotNo) (l : List SlotNo) :
    (k :: l.filter (· != k)).filter (· != k) = l.filter (· != k) := by
  simp [List.filter_filter]

/-- Settles O49: RETIRE and FLUSH. -/
theorem retireAndFlush : Obligations.RetireAndFlush := by
  intro s i w p o k taken others
  refine ⟨fun ready idle => ?_, fun ready writing => ?_, fun ready => ?_⟩
  · have runs : exec (.retire i w p) s = .next (settle (applyRetire k (recordServed k i o s))) :=
      exec_of_recordReady ready (by decide)
    have idle : ((recordServed k i o s).slot k).writeInFlight = false := idle
    rw [applyRetire_idle idle] at runs
    exact ⟨_, runs, rfl, ⟨fun j apart => get_set_ne _ _ apart, rfl, rfl, rfl, rfl, rfl, keepsHost_refl s⟩,
      get_set_eq _ k _, rfl, filter_head_filter k s.recency, fun m => get_map_eq _ _ m, rfl, rfl⟩
  · have runs : exec (.retire i w p) s = .next (settle (applyRetire k (recordServed k i o s))) :=
      exec_of_recordReady ready (by decide)
    have writing : ((recordServed k i o s).slot k).writeInFlight = true := writing
    rw [applyRetire_inFlight writing] at runs
    exact ⟨_, runs, rfl, ⟨fun j apart => get_set_ne _ _ apart, rfl, rfl, rfl, rfl, rfl, keepsHost_refl s⟩,
      get_set_eq _ k _, rfl, filter_head_filter k s.recency, fun m => get_map_eq _ _ m, rfl, rfl⟩
  · have runs : exec (.flush i w p) s = .next (settle (applyFlush k (recordServed k i o s))) :=
      exec_of_recordReady ready (by decide)
    refine ⟨fun nothing => ?_, fun writing => ?_, fun idle dirty => ?_⟩
    · have flush : applyFlush k (recordServed k i o s) = _ := if_pos nothing
      rw [flush] at runs
      exact ⟨_, runs, blockCompletes_recordServed (k := k) .ok _ rfl rfl, rfl,
        fun _ _ => rfl, rfl, rfl, rfl, rfl, rfl, keepsHost_refl s⟩
    · have something : ¬ (s.slot k).nothingToWrite = true := by simp [Slot.nothingToWrite_iff, writing]
      have writing : ((recordServed k i o s).slot k).writeInFlight = true := writing
      have flush : applyFlush k (recordServed k i o s) = _ := if_neg something
      rw [flush, placeFlush_inFlight _ writing] at runs
      exact ⟨_, runs, rfl, ⟨fun j apart => get_set_ne _ _ apart, rfl, rfl, rfl, rfl, rfl, keepsHost_refl s⟩,
        get_set_eq _ k _, rfl⟩
    · have something : ¬ (s.slot k).nothingToWrite = true := by simp [Slot.nothingToWrite_iff, dirty]
      have idle : ((recordServed k i o s).slot k).writeInFlight = false := idle
      have flush : applyFlush k (recordServed k i o s) = _ := if_neg something
      rw [flush, placeFlush_idle _ idle, flushWrite_eq] at runs
      exact ⟨_, runs, rfl, ⟨fun j apart => get_set_ne _ _ apart, rfl, rfl, rfl, rfl, rfl, keepsHost_refl s⟩,
        get_set_eq _ k _, rfl⟩

/-! ## FLUSH ALL (R158) -/

/-- R38: a slot at which a flush request is placed. -/
def Slot.flushAsked (q : Requester) (x : Slot) : Slot :=
  if x.writeInFlight = true then { x with nextReqs := x.nextReqs ++ [q] }
  else
    { x with
      record := { x.record with generation := x.record.generation + 1 }, dirty := false, wbFault := false,
      writeInFlight := true, writeReqs := [q], nextReqs := [] }

/-- R38: the write-back that a flush request asks for. -/
def flushRequests (s : State) (i : SlotNo) : List Request :=
  if (s.slot i).writeInFlight = true then [] else [writeBackAsked i s]

theorem placeFlush_eq (i : SlotNo) (q : Requester) (s : State) :
    placeFlush i q s =
      { s with
        slots := s.slots.set i.val ((s.slot i).flushAsked q) i.isLt,
        port := { s.port with list := s.port.list ++ flushRequests s i } } := by
  cases writing : (s.slot i).writeInFlight with
  | true =>
    rw [placeFlush_inFlight q writing, Slot.flushAsked, if_pos writing, flushRequests, if_pos writing, List.append_nil]
    rfl
  | false =>
    have idle : ¬ (s.slot i).writeInFlight = true := by simp [writing]
    rw [placeFlush_idle q writing, flushWrite_eq, Slot.flushAsked, if_neg idle, flushRequests, if_neg idle]

/-- R38: a request placed at one slot changes no request that another would make. -/
theorem flushRequests_placeFlush {i j : SlotNo} (q : Requester) (s : State) (apart : j ≠ i) :
    flushRequests (placeFlush i q s) j = flushRequests s j := by
  have slot : (placeFlush i q s).slot j = s.slot j := by
    rw [placeFlush_eq]
    exact get_set_ne _ _ apart
  have asked : writeBackAsked j (placeFlush i q s) = writeBackAsked j s := by
    rw [writeBackAsked, State.products, slot, placeFlush_eq]
    rfl
  rw [flushRequests, flushRequests, slot, asked]

/-- R158: flush requests placed at slots, one after another. -/
theorem foldl_placeFlush (q : Requester) (l : List SlotNo) (distinct : l.Nodup) (s : State) :
    l.foldl (fun s i => placeFlush i q s) s =
      { s with
        slots := (l.foldl (fun s i => placeFlush i q s) s).slots,
        port := { s.port with list := s.port.list ++ l.flatMap (flushRequests s) } } ∧
    ∀ j, (l.foldl (fun s i => placeFlush i q s) s).slot j =
      if j ∈ l then (s.slot j).flushAsked q else s.slot j := by
  induction l generalizing s with
  | nil => exact ⟨by simp, fun j => by simp⟩
  | cons i l ih =>
    obtain ⟨fresh, distinct⟩ := List.nodup_cons.mp distinct
    obtain ⟨state, slots⟩ := ih distinct (placeFlush i q s)
    have requests : l.flatMap (flushRequests (placeFlush i q s)) = l.flatMap (flushRequests s) :=
      List.flatMap_congr fun j mem => flushRequests_placeFlush q s fun same => fresh (same ▸ mem)
    have here : (placeFlush i q s).slot i = (s.slot i).flushAsked q := by
      rw [placeFlush_eq]
      exact get_set_eq _ i _
    have there (j : SlotNo) (apart : j ≠ i) : (placeFlush i q s).slot j = s.slot j := by
      rw [placeFlush_eq]
      exact get_set_ne _ _ apart
    rw [List.foldl_cons]
    generalize l.foldl (fun s i => placeFlush i q s) (placeFlush i q s) = r at state slots
    refine ⟨state.trans ?_, fun j => (slots j).trans ?_⟩
    · rw [requests, placeFlush_eq, List.append_assoc, List.flatMap_cons]
    · by_cases same : j = i
      · subst same
        rw [if_neg fresh, if_pos List.mem_cons_self, here]
      · simp only [there j same, List.mem_cons, same, false_or]

/-- R158: the slots that a FLUSH ALL covers, in increasing number. -/
def coveredSlots (s : State) : List SlotNo := allSlots.filter fun k => (s.slot k).flushAllCovers

theorem mem_coveredSlots (s : State) (k : SlotNo) : k ∈ coveredSlots s ↔ (s.slot k).flushAllCovers = true := by
  simp [coveredSlots, allSlots]

theorem coveredSlots_nodup (s : State) : (coveredSlots s).Nodup := (List.nodup_finRange 256).filter _

theorem runFlushAll_nothing {s : State} (h : coveredSlots s = []) : runFlushAll s = storeStatus .ok 0 s := by
  have h : allSlots.filter (fun i => (s.slot i).flushAllCovers) = [] := h
  simp only [runFlushAll, h]

theorem runFlushAll_covers {s : State} (h : coveredSlots s ≠ []) :
    runFlushAll s =
      ((coveredSlots s).foldl (fun s i => placeFlush i .flushAll s) s).modChange fun u =>
        { u with state := .storing, outstanding := (coveredSlots s).length, failures := 0 } := by
  have same : allSlots.filter (fun i => (s.slot i).flushAllCovers) = coveredSlots s := rfl
  unfold runFlushAll
  rw [same]
  cases covered : coveredSlots s with
  | nil => exact absurd covered h
  | cons i l => rfl

theorem flatMap_flushRequests (s : State) :
    (coveredSlots s).flatMap (flushRequests s) =
      (allSlots.filter fun k => (s.slot k).flushAllCovers && !(s.slot k).writeInFlight).map fun k =>
        writeBackAsked k s := by
  rw [coveredSlots]
  induction allSlots with
  | nil => rfl
  | cons k l ih =>
    rw [List.filter_cons, List.filter_cons]
    cases covers : (s.slot k).flushAllCovers with
    | false => simpa using ih
    | true =>
      cases writing : (s.slot k).writeInFlight with
      | true => simpa [flushRequests, writing] using ih
      | false => simpa [flushRequests, writing] using ih

theorem Slot.flushAllCovers_iff (x : Slot) :
    x.flushAllCovers = true ↔ x.state = .resident ∧ (x.dirty = true ∨ x.wbFault = true) := by
  simp [Slot.flushAllCovers]

/-- Settles O50: FLUSH ALL. -/
theorem flushAllCoversTheDirtySlots : Obligations.FlushAllCoversTheDirtySlots := by
  intro s i w p o ready
  have runs : exec (.flushAll i w p) s = .next (settle (runFlushAll (blockTaken i o s))) := exec_of_blockReady ready
  refine ⟨fun nothing => ?_, fun ⟨k, covers⟩ => ?_⟩
  · have none : coveredSlots (blockTaken i o s) = [] := by
      refine List.eq_nil_iff_forall_not_mem.mpr fun k mem => ?_
      obtain ⟨resident, work⟩ := ((blockTaken i o s).slot k).flushAllCovers_iff.mp ((mem_coveredSlots _ k).mp mem)
      rcases nothing k with other | ⟨clean, sound⟩
      · exact other resident
      · exact work.elim (fun dirty => Bool.noConfusion (clean.symm.trans dirty))
          fun fault => Bool.noConfusion (sound.symm.trans fault)
    rw [runFlushAll_nothing none] at runs
    exact ⟨_, runs, blockCompletes_storeStatus _ _ rfl rfl, rfl⟩
  · have some_ : coveredSlots (blockTaken i o s) ≠ [] :=
      List.ne_nil_of_mem ((mem_coveredSlots _ k).mpr covers)
    obtain ⟨state, slots⟩ := foldl_placeFlush .flushAll _ (coveredSlots_nodup (blockTaken i o s)) (blockTaken i o s)
    have requests := flatMap_flushRequests (blockTaken i o s)
    rw [runFlushAll_covers some_] at runs
    generalize (coveredSlots (blockTaken i o s)).foldl (fun s i => placeFlush i .flushAll s) (blockTaken i o s) = r
      at state slots runs
    rw [requests] at state
    rw [state] at runs
    refine ⟨_, runs, rfl, rfl, List.countP_eq_length_filter.symm, rfl, rfl, rfl, rfl, keepsHost_refl s, rfl,
      fun j => ⟨fun uncovered => ?_, fun covers writing => ?_, fun covers idle => ?_⟩⟩
    · have out : j ∉ coveredSlots (blockTaken i o s) := fun mem =>
        Bool.noConfusion (uncovered.symm.trans ((mem_coveredSlots _ j).mp mem))
      exact (slots j).trans (if_neg out)
    · have asked : (s.slot j).flushAsked .flushAll = _ := if_pos writing
      exact ((slots j).trans (if_pos ((mem_coveredSlots _ j).mpr covers))).trans asked
    · have asked : (s.slot j).flushAsked .flushAll = _ := if_neg (by simp [idle])
      exact ((slots j).trans (if_pos ((mem_coveredSlots _ j).mpr covers))).trans asked

end Sys2Proof.Machine
end

section
/-! Cells taken and freed (R50 to R53), and the lookup of slots. -/

namespace Sys2Proof.Machine

/-! ## Lookup -/

theorem firstSlot_eq_find? (p : Slot → Bool) (s : State) : firstSlot p s = allSlots.find? fun i => p (s.slot i) := by
  have pairs : allSlots.zip s.slots.toList = allSlots.map fun i => (i, s.slot i) := by
    apply List.ext_getElem
    · simp [allSlots]
    · intro j hj hj'
      simp [allSlots, State.slot, Vector.get_eq_getElem]
  rw [firstSlot, pairs, List.find?_map, Option.map_map]
  exact Option.map_id'

theorem firstSlot_eq_some_iff (p : Slot → Bool) (s : State) (i : SlotNo) :
    firstSlot p s = some i ↔ p (s.slot i) = true ∧ ∀ j, j < i → p (s.slot j) = false := by
  rw [firstSlot_eq_find?, allSlots, find?_finRange_eq_some_iff]

/-- R21: a slot that leaves its key for another, or for none, hides no other slot. -/
theorem findSlot_of_agree {k : Key} {s t : State} {i v : SlotNo} (found : findSlot k s = some i) (apart : i ≠ v)
    (others : ∀ j, j ≠ v → t.slot j = s.slot j) (gone : (t.slot v).state = .free ∨ (t.slot v).key ≠ k) :
    findSlot k t = some i := by
  rw [findSlot, firstSlot_eq_some_iff] at found ⊢
  obtain ⟨here, below⟩ := found
  refine ⟨by rw [others i apart]; exact here, fun j lt => ?_⟩
  by_cases same : j = v
  · subst same
    rcases gone with free | other
    · simp [free]
    · simp [other]
  · rw [others j same]
    exact below j lt

/-! ## Cells (R50) -/

theorem CellPool.writeAll_entry_of_not_mem (p : CellPool) {cs : List CellNo} (ps : List ProductEntry) {c : CellNo}
    (h : c ∉ cs) : (p.writeAll cs ps).entry c = p.entry c := by
  induction cs generalizing p ps with
  | nil => rfl
  | cons d cs ih =>
    obtain ⟨other, rest⟩ : c ≠ d ∧ c ∉ cs := by simpa using h
    cases ps with
    | nil => rfl
    | cons x xs => rw [CellPool.writeAll, ih _ _ rest, CellPool.entry_write, if_neg (Ne.symm other)]

/-- R50: entries written into distinct cells stand there in order. -/
theorem CellPool.writeAll_entries (p : CellPool) {cs : List CellNo} {ps : List ProductEntry} (distinct : cs.Nodup)
    (length : cs.length = ps.length) : cs.map (p.writeAll cs ps).entry = ps := by
  induction cs generalizing p ps with
  | nil => exact (List.eq_nil_of_length_eq_zero length.symm).symm
  | cons c cs ih =>
    obtain ⟨fresh, distinct⟩ := List.nodup_cons.mp distinct
    cases ps with
    | nil => exact absurd length (by simp)
    | cons x xs =>
      rw [CellPool.writeAll, List.map_cons, CellPool.writeAll_entry_of_not_mem _ _ fresh, CellPool.entry_write, if_pos rfl,
        ih _ distinct (Nat.succ.inj length)]

/-- R50: the taking of cells, as one state. -/
theorem takeCells_eq (i : SlotNo) (ps : List ProductEntry) (s : State) :
    takeCells i ps s =
      { s with
        slots := s.slots.set i.val { s.slot i with cells := (s.slot i).cells ++ s.pool.free.take ps.length } i.isLt,
        pool :=
          ({ s.pool with free := s.pool.free.drop ps.length } : CellPool).writeAll (s.pool.free.take ps.length)
            ps } := rfl

/-! ## Shortage (R53) -/

/-- R53: a clean eligible slot with cells, other than the one in want. -/
def givesCells (own : SlotNo) (s : State) (k : SlotNo) : Bool :=
  k != own && (s.slot k).cleanEligible && !(s.slot k).cells.isEmpty

theorem cellVictim_eq (own : SlotNo) (s : State) : cellVictim own s = s.recency.reverse.find? (givesCells own s) := rfl

theorem freeClean_skip {own : SlotNo} {n : Nat} {i : SlotNo} {s : State} (l : List SlotNo)
    (h : givesCells own s i = false) : freeClean own n (i :: l) s = freeClean own n l s := by
  have stays : ¬ (s.pool.free.length < n && i != own && (s.slot i).cleanEligible && !(s.slot i).cells.isEmpty) = true := by
    intro gives
    simp only [Bool.and_eq_true] at gives
    simp only [givesCells, gives, Bool.and_self] at h
    exact Bool.noConfusion h
  rw [freeClean, if_neg stays]

theorem freeClean_gives {own : SlotNo} {n : Nat} {i : SlotNo} {s : State} (l : List SlotNo)
    (short : s.pool.free.length < n) (h : givesCells own s i = true) :
    freeClean own n (i :: l) s = freeClean own n l (handOver i (cleanlyEvicted i s)) := by
  have gives : (s.pool.free.length < n && i != own && (s.slot i).cleanEligible && !(s.slot i).cells.isEmpty) = true := by
    simp only [givesCells, Bool.and_eq_true] at h
    simp [short, h]
  rw [freeClean, if_pos gives, cleanEvict_eq]

theorem freeClean_skip_all {own : SlotNo} {n : Nat} {s : State} (pre l : List SlotNo)
    (h : ∀ j, j ∈ pre → givesCells own s j = false) : freeClean own n (pre ++ l) s = freeClean own n l s := by
  induction pre with
  | nil => rfl
  | cons i pre ih =>
    rw [List.cons_append, freeClean_skip _ (h i List.mem_cons_self)]
    exact ih fun j mem => h j (List.mem_cons_of_mem _ mem)

/-- R53: with no slot that could give cells, none is freed. -/
theorem freeCleanFor_none {own : SlotNo} (n : Nat) {s : State} (h : cellVictim own s = none) :
    freeCleanFor own n s = s := by
  have course := freeClean_skip_all (own := own) (n := n) (s := s) s.recency.reverse []
    fun j mem => Bool.eq_false_iff.mpr (List.find?_eq_none.mp h j mem)
  rw [List.append_nil] at course
  exact course

/-- R53: a slot that is not clean and eligible is passed over wherever it stands. -/
theorem freeClean_filter {own v : SlotNo} {n : Nat} (l : List SlotNo) {s : State}
    (h : (s.slot v).cleanEligible = false) : freeClean own n (l.filter (· != v)) s = freeClean own n l s := by
  induction l generalizing s with
  | nil => rfl
  | cons i l ih =>
    by_cases same : i = v
    · subst same
      rw [List.filter_cons_of_neg (by simp), ih h, freeClean_skip _ (by simp [givesCells, h])]
    · rw [List.filter_cons_of_pos (by simpa using same), freeClean, freeClean]
      split
      · refine ih ?_
        rw [handOver_slot_ne _ _ _ (Ne.symm same), cleanEvict_slot_ne _ _ _ (Ne.symm same)]
        exact h
      · exact ih h

theorem handOver_recency (i : SlotNo) (s : State) : (handOver i s).recency = s.recency := by
  cases waiting : s.slotWait with
  | nil => rw [handOver_nil i s waiting]
  | cons w ws => rw [handOver_cons waiting]

/-- R43: a slot handed over is FREE, or FETCHING for the oldest entry's key. -/
theorem handOver_evicted_slot (v : SlotNo) (s : State) :
    ((handOver v (cleanlyEvicted v s)).slot v).state = .free ∨
      ((handOver v (cleanlyEvicted v s)).slot v).state = .fetching ∧
        ∃ w, w ∈ s.slotWait ∧ ((handOver v (cleanlyEvicted v s)).slot v).key = waiterKey s w := by
  cases waiting : s.slotWait with
  | nil =>
    have waiting : (cleanlyEvicted v s).slotWait = [] := waiting
    rw [handOver_nil v _ waiting]
    have slot : (cleanlyEvicted v s).slot v = Slot.unused := get_set_eq _ v _
    rw [slot]
    exact .inl rfl
  | cons w ws =>
    have waiting : (cleanlyEvicted v s).slotWait = w :: ws := waiting
    rw [handOver_cons waiting]
    refine .inr ⟨congrArg Slot.state (get_set_eq _ v _), w, List.mem_cons_self, ?_⟩
    exact congrArg Slot.key (get_set_eq _ v _)

/-- R53: short of cells, the slot nearest the tail is freed and handed over, and the freeing goes on. -/
theorem freeCleanFor_next {own v : SlotNo} {n : Nat} {s : State} (short : s.pool.free.length < n)
    (h : cellVictim own s = some v) :
    freeCleanFor own n s = freeCleanFor own n (handOver v (cleanlyEvicted v s)) := by
  obtain ⟨gives, pre, rest, split, before⟩ := List.find?_eq_some_iff_append.mp h
  have before : ∀ j, j ∈ pre → givesCells own s j = false := fun j mem => (Bool.not_eq_true' _).mp (before j mem)
  have gone : ((handOver v (cleanlyEvicted v s)).slot v).cleanEligible = false := by
    rcases handOver_evicted_slot v s with free | ⟨fetching, _⟩
    · simp [Slot.cleanEligible, Slot.eligible, free]
    · simp [Slot.cleanEligible, Slot.eligible, fetching]
  have recency : (handOver v (cleanlyEvicted v s)).recency.reverse =
      pre.filter (· != v) ++ rest.filter (· != v) := by
    rw [handOver_recency]
    show (s.recency.filter (· != v)).reverse = _
    rw [← List.filter_reverse, split, List.filter_append, List.filter_cons_of_neg (by simp)]
  have skipped : ∀ j, j ∈ pre.filter (· != v) → givesCells own (handOver v (cleanlyEvicted v s)) j = false := by
    intro j mem
    obtain ⟨mem, apart⟩ := List.mem_filter.mp mem
    have apart : j ≠ v := by simpa using apart
    have slot : (handOver v (cleanlyEvicted v s)).slot j = s.slot j := by
      rw [handOver_slot_ne _ _ _ apart, ← cleanEvict_eq, cleanEvict_slot_ne _ _ _ apart]
    rw [givesCells, slot]
    exact before j mem
  rw [freeCleanFor, freeCleanFor, split, freeClean_skip_all pre _ before, freeClean_gives rest short gives, recency,
    freeClean_skip_all _ _ skipped, freeClean_filter rest gone]

end Sys2Proof.Machine
end

section
/-! ENROLL, ADD PRODUCT and REMOVE PRODUCT (R151, R154), with the settling of O46 and O48. -/

namespace Sys2Proof.Machine

/-! ## A shortage in the event of a record command (R53, R55, R56) -/

theorem handOver_inFlight (i : SlotNo) (s : State) : (handOver i s).port.inFlight = s.port.inFlight := by
  cases waiting : s.slotWait with
  | nil => rw [handOver_nil i s waiting]
  | cons w ws => rw [handOver_cons waiting]

theorem blockArrives_congr (again : Bool) (i : Nat) (w : Word) (p : BitVec 4) {s t : State} (change : t.change = s.change)
    (inFlight : t.port.inFlight = s.port.inFlight) : blockArrives again i w p t = blockArrives again i w p s := by
  have op : t.op i = s.op i := congrArg (fun l => l[i]?) inFlight
  unfold blockArrives readEnds
  rw [op, change]

theorem blockKey_shortage (o : Op) (v : SlotNo) (s : State) :
    blockKey o (handOver v (cleanlyEvicted v s)) = blockKey o s := by
  have shape : (handOver v (cleanlyEvicted v s)).engine.keyShape = s.engine.keyShape :=
    handOver_blind keyShape_blind.toCacheBlind v _
  rw [blockKey, shape, blockKey]

/-- R53: a slot freed for cells leaves a record command at its slot. -/
theorem recordReady_shortage {c : ChangeCommand} {i : Nat} {w : Word} {p : BitVec 4} {k v : SlotNo} {s : State} {o : Op}
    (ready : recordReady c i w p k s o) (apart : k ≠ v)
    (unlisted : ∀ u, u ∈ s.slotWait → u ≠ .change ∧ waiterKey s u ≠ blockKey o s) :
    recordReady c i w p k (handOver v (cleanlyEvicted v s)) o := by
  obtain ⟨⟨arrives, checked⟩, found, passed⟩ := ready
  have change : (handOver v (cleanlyEvicted v s)).change = s.change := handOver_blind change_cacheBlind v _
  have key := blockKey_shortage o v s
  have others (j : SlotNo) (other : j ≠ v) : (handOver v (cleanlyEvicted v s)).slot j = s.slot j := by
    rw [handOver_slot_ne _ _ _ other, ← cleanEvict_eq, cleanEvict_slot_ne _ _ _ other]
  obtain ⟨slot, resident⟩ := Option.filter_eq_some_iff.mp found
  have slot : findSlot (blockKey o s) (handOver v (cleanlyEvicted v s)) = some k := by
    refine findSlot_of_agree slot apart others ?_
    rcases handOver_evicted_slot v s with free | ⟨_, u, listed, named⟩
    · exact .inl free
    · exact .inr (by rw [named]; exact (unlisted u listed).2)
  refine ⟨⟨?_, checked⟩, Option.filter_eq_some_iff.mpr ⟨by rw [key]; exact slot, ?_⟩, ?_⟩
  · rw [blockArrives_congr _ _ _ _ change (handOver_inFlight v _)]
    exact arrives
  · rw [others k apart]
    exact resident
  · rw [others k apart]
    exact passed

theorem awaitAll_taps_congr (ws : List Waiter) {s t : State} (taps : t.taps = s.taps) :
    (awaitAll ws t).taps = (awaitAll ws s).taps := by
  induction ws generalizing s t with
  | nil => exact taps
  | cons w ws ih => exact ih (setAwait_taps_congr true w taps)

theorem filter_filter_swap (k v : SlotNo) (l : List SlotNo) (apart : k ≠ v) :
    (k :: l.filter (· != k)).filter (· != v) = k :: (l.filter (· != v)).filter (· != k) := by
  rw [List.filter_cons_of_pos (by simpa using apart), List.filter_filter, List.filter_filter]
  simp only [Bool.and_comm]

theorem cleanlyEvicted_recordServed {k v : SlotNo} (i : Nat) (o : Op) (s : State) (apart : k ≠ v) :
    cleanlyEvicted v (recordServed k i o s) = recordServed k i o (cleanlyEvicted v s) := by
  simp only [cleanlyEvicted, recordServed, filter_filter_swap k v _ apart]
  rfl

theorem waiterKey_recordServed (k : SlotNo) (i : Nat) (o : Op) (s : State) {u : Waiter} (h : u ≠ .change) :
    waiterKey (recordServed k i o s) u = waiterKey s u := by
  cases u with
  | tap c => rfl
  | change => exact absurd rfl h

/-- R43: with no change request on the slot-wait list, a hand-over and the taking of a record command change places. -/
theorem handOver_recordServed (k v : SlotNo) (i : Nat) (o : Op) {s : State}
    (unlisted : ∀ u, u ∈ s.slotWait → u ≠ .change) :
    handOver v (recordServed k i o s) = recordServed k i o (handOver v s) := by
  cases waiting : s.slotWait with
  | nil =>
    have waiting' : (recordServed k i o s).slotWait = [] := waiting
    rw [handOver_nil v _ waiting, handOver_nil v _ waiting']
  | cons u us =>
    have waiting' : (recordServed k i o s).slotWait = u :: us := waiting
    have keys (w : Waiter) (mem : w ∈ s.slotWait) : waiterKey (recordServed k i o s) w = waiterKey s w :=
      waiterKey_recordServed k i o s (unlisted w mem)
    have first := keys u (waiting ▸ List.mem_cons_self)
    have named : s.slotWait.filter (fun w => waiterKey (recordServed k i o s) w == waiterKey s u) =
        s.slotWait.filter fun w => waiterKey s w == waiterKey s u :=
      List.filter_congr fun w mem => by rw [keys w mem]
    have others : s.slotWait.filter (fun w => waiterKey (recordServed k i o s) w != waiterKey s u) =
        s.slotWait.filter fun w => waiterKey s w != waiterKey s u :=
      List.filter_congr fun w mem => by rw [keys w mem]
    have taps (ws : List Waiter) : (awaitAll ws (recordServed k i o s)).taps = (awaitAll ws s).taps :=
      awaitAll_taps_congr ws rfl
    have list : (recordServed k i o s).slotWait = s.slotWait := rfl
    rw [handOver_cons waiting, handOver_cons waiting', list, first, named, others, taps]
    rfl

theorem cellVictim_recordServed (k : SlotNo) (i : Nat) (o : Op) (s : State) :
    cellVictim k (recordServed k i o s) = cellVictim k s := by
  have gives : givesCells k (recordServed k i o s) = givesCells k s := rfl
  have own : givesCells k s k = false := by simp [givesCells]
  rw [cellVictim_eq, cellVictim_eq, gives]
  show (k :: s.recency.filter (· != k)).reverse.find? (givesCells k s) = _
  rw [List.reverse_cons, ← List.filter_reverse, List.find?_append, List.find?_singleton, own, List.find?_filter]
  simp only [Bool.false_eq_true, if_false, Option.or_none]
  congr 1
  funext j
  by_cases same : j = k
  · subst same
    simp [own]
  · simp [same]

theorem cellVictim_ne {k v : SlotNo} {s : State} (gives : cellVictim k s = some v) : k ≠ v := by
  have found := List.find?_some (gives : s.recency.reverse.find? (givesCells k s) = some v)
  simp only [Bool.and_eq_true, bne_iff_ne] at found
  obtain ⟨⟨other, _⟩, _⟩ := found
  exact Ne.symm other

/-- R53, R55, R56: a record command short of cells acts as in the state in which the first slot has been freed. -/
theorem freeCleanFor_recordServed {k v : SlotNo} {n : Nat} (i : Nat) (o : Op) {s : State}
    (short : s.pool.free.length < n) (gives : cellVictim k s = some v) (unlisted : ∀ u, u ∈ s.slotWait → u ≠ .change) :
    freeCleanFor k n (recordServed k i o s) =
      freeCleanFor k n (recordServed k i o (handOver v (cleanlyEvicted v s))) := by
  have apart := cellVictim_ne gives
  rw [freeCleanFor_next (s := recordServed k i o s) short ((cellVictim_recordServed k i o s).trans gives),
    cleanlyEvicted_recordServed i o s apart,
    handOver_recordServed k v i o (s := cleanlyEvicted v s) unlisted]

/-! ## Cells taken by a record command (R50) -/

theorem amendRecord_takeCells (k : SlotNo) (f : Record → Record) (ps : List ProductEntry) (s : State) :
    amendRecord k f (takeCells k ps s) =
      { s with
        slots :=
          s.slots.set k.val
            { s.slot k with
              cells := (s.slot k).cells ++ s.pool.free.take ps.length, record := f (s.slot k).record, dirty := true }
            k.isLt,
        pool :=
          ({ s.pool with free := s.pool.free.drop ps.length } : CellPool).writeAll (s.pool.free.take ps.length) ps } := by
  rw [takeCells_eq, amendRecord_eq]
  simp only [State.slot, get_set_eq, set_set_eq]

theorem products_of_slot {k : SlotNo} {t : State} {cells : List CellNo} {pool : CellPool} (slot : (t.slot k).cells = cells)
    (same : t.pool = pool) : t.products k = cells.map pool.entry := by
  rw [State.products, slot, same]

/-- R150, R50: what a record command that takes cells leaves. -/
theorem recordServed_tookCells (c : Status) (result : Word) (f : Record → Record) (ps : List ProductEntry) (k : SlotNo)
    (i : Nat) (o : Op) (s : State) :
    let t := storeStatus c result (amendRecord k f (takeCells k ps (recordServed k i o s)))
    blockCompletes (blockKey o s) c result i o s t ∧
      t.slot k =
        { s.slot k with
          cells := (s.slot k).cells ++ s.pool.free.take ps.length, record := f (s.slot k).record, dirty := true } ∧
      t.pool =
        ({ s.pool with free := s.pool.free.drop ps.length } : CellPool).writeAll (s.pool.free.take ps.length) ps ∧
      t.recency = k :: s.recency.filter (· != k) ∧ t.marks = s.marks ∧ commandFrame k s t := by
  rw [amendRecord_takeCells]
  exact ⟨blockCompletes_recordServed (k := k) c result rfl rfl, get_set_eq _ k _, rfl, rfl, rfl,
    fun _ apart => get_set_ne _ _ apart, rfl, rfl, rfl, rfl, rfl, rfl, keepsHost_refl s⟩

/-! ## ENROLL (R151) -/

theorem kindOf_none {b : Byte} (pass : b ≠ 1) (ride : b ≠ 2) : kindOf b = none := by
  rw [kindOf, if_neg pass, if_neg ride]

theorem decodeProduct_none {l : List Byte} {off : Nat} (pass : byteAt l off ≠ 1) (ride : byteAt l off ≠ 2) :
    decodeProduct l off = none := by
  rw [decodeProduct, kindOf_none pass ride]
  rfl

/-- R151: an entry whose kind byte is no code spoils the list. -/
theorem decodeProducts_none {l : List Byte} {n : Nat} (off j : Nat) (lt : j < n) (pass : byteAt l (off + 12 * j) ≠ 1)
    (ride : byteAt l (off + 12 * j) ≠ 2) : decodeProducts l off n = none := by
  induction n generalizing off j with
  | zero => exact absurd lt (Nat.not_lt_zero j)
  | succ n ih =>
    cases j with
    | zero =>
      have first : decodeProduct l off = none := decodeProduct_none pass ride
      simp only [decodeProducts, first]
    | succ j =>
      have place : off + 12 * (j + 1) = off + 12 + 12 * j := by omega
      rw [place] at pass ride
      have rest := ih (off + 12) j (Nat.lt_of_succ_lt_succ lt) pass ride
      rw [decodeProducts, rest]
      cases decodeProduct l off <;> rfl

theorem enrollArgs_of {b : Block} {c : ClassNo} {ps : List ProductEntry} (cls : (byteAt b.payload 0).toNat = c.val)
    (ident : b.ident ≠ 0) (count : (byteAt b.payload 1).toNat ≤ 12) (low : -65535 ≤ (wordAt b.payload 4).toInt)
    (high : (wordAt b.payload 4).toInt ≤ 16777215)
    (decoded : decodeProducts b.payload 8 (byteAt b.payload 1).toNat = some ps) :
    enrollArgs b = some (c, ps.map ProductEntry.fresh) := by
  rw [enrollArgs]
  rw [dif_pos (cls ▸ c.isLt), if_pos ⟨ident, count, (balanceInRange_iff _).mpr ⟨low, high⟩⟩, decoded]
  simp only [Option.map_some, cls]

theorem enrollArgs_none {b : Block}
    (h : 7 < (byteAt b.payload 0).toNat ∨ b.ident = 0 ∨ 12 < (byteAt b.payload 1).toNat ∨
      16777215 < (wordAt b.payload 4).toInt ∨ (wordAt b.payload 4).toInt < -65535 ∨
      (∃ j, j < (byteAt b.payload 1).toNat ∧ byteAt b.payload (8 + 12 * j) ≠ 1 ∧
        byteAt b.payload (8 + 12 * j) ≠ 2)) : enrollArgs b = none := by
  rw [enrollArgs]
  split
  · split
    · next below checked =>
      obtain ⟨ident, count, inRange⟩ := checked
      have ⟨low, high⟩ := (balanceInRange_iff _).mp inRange
      rcases h with above | zero | many | big | small | ⟨j, lt, pass, ride⟩
      · omega
      · exact absurd zero ident
      · omega
      · omega
      · omega
      · rw [decodeProducts_none 8 j lt pass ride]
        rfl
    · rfl
  · rfl

/-- R151, R55: ENROLL with its arguments in range. -/
theorem applyEnroll_some {k : SlotNo} {s : State} {c : ClassNo} {ps : List ProductEntry}
    (args : enrollArgs s.change.block = some (c, ps)) :
    applyEnroll k s =
      if ps.length ≤ (freeCleanFor k ps.length s).pool.free.length then
        storeStatus .ok (keyResult s)
          (amendRecord k (enrolledRecord s.change.block c s) (takeCells k ps (freeCleanFor k ps.length s)))
      else refuseCellShort (keyResult s) (freeCleanFor k ps.length s) := by
  simp only [applyEnroll, args]

theorem applyEnroll_none {k : SlotNo} {s : State} (args : enrollArgs s.change.block = none) :
    applyEnroll k s = storeStatus .badArgument (keyResult s) s := by
  simp only [applyEnroll, args]

theorem enrolledRecord_congr (b : Block) (c : ClassNo) {s t : State} (tariff : t.tariff = s.tariff)
    (clock : t.clock = s.clock) (r : Record) : enrolledRecord b c t r = enrolledRecord b c s r := by
  simp only [enrolledRecord, burstOf, tariff, clock]

/-- R55 to R57: a block refused for want of cells. -/
theorem recordServed_cellShort (result : Word) (k : SlotNo) (i : Nat) (o : Op) (s : State) :
    let t := refuseCellShort result (recordServed k i o s)
    blockCompletes (blockKey o s) .cellShort result i o s t ∧ t.slots = s.slots ∧ t.pool = s.pool ∧
      t.recency = k :: s.recency.filter (· != k) ∧ t.counts = s.counts ∧ t.attn = raised .cellShort s ∧
      t.lines = s.lines ∧ t.taps = s.taps ∧ t.marks = s.marks ∧ keepsHost s t := by
  have completes := blockCompletes_recordServed (k := k) (s := s) (i := i) (o := o) .cellShort result rfl rfl
  rw [refuseCellShort, raise_eq_raised]
  exact ⟨completes, rfl, rfl, rfl, rfl, rfl, rfl, rfl, rfl, keepsHost_refl s⟩

/-- Settles O46: ENROLL. -/
theorem enrollWritesTheRecord : Obligations.EnrollWritesTheRecord := by
  intro s i w p o k ready b key
  have runs : exec (.enroll i w p) s = .next (settle (applyEnroll k (recordServed k i o s))) :=
    exec_of_recordReady ready (by decide)
  refine ⟨fun c ps cls ident count low high decoded enough distinct empty => ?_, fun bad => ?_,
    fun c ps v args short gives unlisted => ?_, fun c ps args short nobody => ?_⟩
  · have args : enrollArgs (recordServed k i o s).change.block = some (c, ps.map ProductEntry.fresh) :=
      enrollArgs_of cls ident count low high decoded
    have length : (ps.map ProductEntry.fresh).length = ps.length := List.length_map _
    have enough' : (ps.map ProductEntry.fresh).length ≤ (recordServed k i o s).pool.free.length := by
      rw [length]
      exact enough
    obtain ⟨completes, slot, pool, recency, marks, frame⟩ :=
      recordServed_tookCells .ok key (enrolledRecord b c (recordServed k i o s)) (ps.map ProductEntry.fresh) k i o s
    rw [length] at slot pool
    rw [empty, List.nil_append] at slot
    rw [applyEnroll_some args, freeCleanFor_enough _ _ _ enough', if_pos enough'] at runs
    refine ⟨_, runs, completes, slot, ?_, ?_, recency, marks, frame⟩
    · have taken : (s.pool.free.take ps.length).length = (ps.map ProductEntry.fresh).length := by
        rw [List.length_take, length, Nat.min_eq_left enough]
      exact (products_of_slot (congrArg Slot.cells slot) pool).trans
        (CellPool.writeAll_entries _ (distinct.sublist (List.take_sublist _ _)) taken)
    · exact (congrArg CellPool.free pool).trans (CellPool.writeAll_free _ _ _)
  · have args : enrollArgs (recordServed k i o s).change.block = none := enrollArgs_none bad
    obtain ⟨completes, slots, _, pool, _, frame⟩ := recordServed_stored .badArgument key k i o s
    rw [applyEnroll_none args] at runs
    exact ⟨_, runs, completes, slots, pool, frame⟩
  · have apart : k ≠ v := cellVictim_ne gives
    have later : exec (.enroll i w p) (handOver v (cleanlyEvicted v s)) =
        .next (settle (applyEnroll k (recordServed k i o (handOver v (cleanlyEvicted v s))))) :=
      exec_of_recordReady (recordReady_shortage ready apart unlisted) (by decide)
    have args : enrollArgs (recordServed k i o s).change.block = some (c, ps) := args
    have args' : enrollArgs (recordServed k i o (handOver v (cleanlyEvicted v s))).change.block = some (c, ps) := args
    rw [runs, later, applyEnroll_some args, applyEnroll_some args',
      freeCleanFor_recordServed i o short gives fun u mem => (unlisted u mem).1]
    have record : enrolledRecord b c (recordServed k i o (handOver v (cleanlyEvicted v s))) =
        enrolledRecord b c (recordServed k i o s) :=
      funext (enrolledRecord_congr b c (handOver_blind tariff_blind.toCacheBlind v _)
        (handOver_blind clock_blind.toCacheBlind v _))
    have result : keyResult (recordServed k i o (handOver v (cleanlyEvicted v s))) = keyResult (recordServed k i o s) := by
      rw [keyResult_recordServed, keyResult_recordServed, blockKey_shortage]
    rw [result, recordServed_block, recordServed_block, record]
  · have args : enrollArgs (recordServed k i o s).change.block = some (c, ps) := args
    have nobody := (cellVictim_recordServed k i o s).trans nobody
    have short : ¬ ps.length ≤ (recordServed k i o s).pool.free.length := Nat.not_le.mpr short
    rw [applyEnroll_some args, freeCleanFor_none _ nobody, if_neg short] at runs
    exact ⟨_, runs, recordServed_cellShort key k i o s⟩

/-! ## ADD PRODUCT and REMOVE PRODUCT (R154) -/

theorem applyAddProduct_full {k : SlotNo} {s : State} (full : 12 ≤ (s.slot k).cells.length) :
    applyAddProduct k s = storeStatus .productFull (countResult k s) s := if_pos full

theorem applyAddProduct_none {k : SlotNo} {s : State} (room : (s.slot k).cells.length < 12)
    (bad : decodeProduct s.change.block.payload 0 = none) :
    applyAddProduct k s = storeStatus .badArgument (countResult k s) s := by
  rw [applyAddProduct, if_neg (Nat.not_le.mpr room), bad]

theorem applyAddProduct_some {k : SlotNo} {s : State} {e : ProductEntry} (room : (s.slot k).cells.length < 12)
    (decoded : decodeProduct s.change.block.payload 0 = some e) :
    applyAddProduct k s =
      if 1 ≤ (freeCleanFor k 1 s).pool.free.length then
        storeStatus .ok (countResult k (amendRecord k id (takeCells k [e.fresh] (freeCleanFor k 1 s))))
          (amendRecord k id (takeCells k [e.fresh] (freeCleanFor k 1 s)))
      else refuseCellShort (countResult k s) (freeCleanFor k 1 s) := by
  rw [applyAddProduct, if_neg (Nat.not_le.mpr room), decoded]

theorem countResult_amendRecord_takeCells (k : SlotNo) (f : Record → Record) (ps : List ProductEntry) (s : State) :
    countResult k (amendRecord k f (takeCells k ps s)) =
      BitVec.ofNat 32 ((s.slot k).cells ++ s.pool.free.take ps.length).length := by
  rw [countResult, amendRecord_takeCells]
  exact congrArg (fun x : Slot => BitVec.ofNat 32 x.cells.length) (get_set_eq _ k _)

/-- R50, R154: the product list with one entry more. -/
theorem map_write_append {free : List CellNo} (pool : CellPool) {cells : List CellNo} {c : CellNo} (x : ProductEntry)
    (fresh : c ∉ cells) :
    (cells ++ [c]).map (({ pool with free := free } : CellPool).write c x).entry = cells.map pool.entry ++ [x] := by
  rw [List.map_append, List.map_singleton, CellPool.entry_write, if_pos rfl]
  congr 1
  refine List.map_congr_left fun d mem => ?_
  have apart : ¬ c = d := fun same => fresh (same ▸ mem)
  rw [CellPool.entry_write, if_neg apart]
  rfl

/-- R51, R154: a cell returned by a record command, as one state. -/
theorem amendRecord_returnCell (k : SlotNo) (c : CellNo) (s : State) :
    amendRecord k id (returnCell k c s) =
      { s with
        slots := s.slots.set k.val { s.slot k with cells := (s.slot k).cells.erase c, dirty := true } k.isLt,
        pool := { s.pool with free := c :: s.pool.free } } := by
  simp only [amendRecord, returnCell, CellPool.giveBack, State.modSlot, State.setSlot, State.setSlots, State.setPool,
    State.slot, get_set_eq, set_set_eq, id]
  rfl

theorem applyRemoveProduct_some {k : SlotNo} {s : State} {c : CellNo}
    (found : cellWithTag k (halfAt s.change.block.payload 0) s = some c) :
    applyRemoveProduct k s =
      storeStatus .ok (countResult k (amendRecord k id (returnCell k c s))) (amendRecord k id (returnCell k c s)) := by
  rw [applyRemoveProduct, found]

theorem applyRemoveProduct_none {k : SlotNo} {s : State}
    (absent : cellWithTag k (halfAt s.change.block.payload 0) s = none) :
    applyRemoveProduct k s = storeStatus .noProduct (countResult k s) s := by
  rw [applyRemoveProduct, absent]

/-- Settles O48: ADD PRODUCT and REMOVE PRODUCT. -/
theorem addAndRemoveProduct : Obligations.AddAndRemoveProduct := by
  intro s i w p o k b cells kept
  refine ⟨fun ready => ?_, fun ready => ?_⟩
  · have runs : exec (.addProduct i w p) s = .next (settle (applyAddProduct k (recordServed k i o s))) :=
      exec_of_recordReady ready (by decide)
    refine ⟨fun e c rest room decoded free fresh => ?_, fun full => ?_, fun room pass ride => ?_,
      fun e v room decoded none gives unlisted => ?_, fun e room decoded none nobody => ?_⟩
    · have decoded : decodeProduct (recordServed k i o s).change.block.payload 0 = some e := decoded
      have room : ((recordServed k i o s).slot k).cells.length < 12 := room
      have free' : (recordServed k i o s).pool.free = c :: rest := free
      have enough : 1 ≤ (recordServed k i o s).pool.free.length := by simp [free']
      have count : countResult k (amendRecord k id (takeCells k [e.fresh] (recordServed k i o s))) =
          BitVec.ofNat 32 (cells.length + 1) := by
        rw [countResult_amendRecord_takeCells, free', recordServed_slot, List.length_append]
        rfl
      obtain ⟨completes, slot, pool, recency, marks, frame⟩ :=
        recordServed_tookCells .ok (BitVec.ofNat 32 (cells.length + 1)) id [e.fresh] k i o s
      rw [free] at slot pool
      rw [applyAddProduct_some room decoded, freeCleanFor_enough _ _ _ enough, if_pos enough, count] at runs
      refine ⟨_, runs, completes, ⟨recency, marks, frame⟩, slot, congrArg CellPool.free pool, ?_⟩
      exact (products_of_slot (congrArg Slot.cells slot) pool).trans (map_write_append s.pool e.fresh fresh)
    · obtain ⟨completes, slots, recency, pool, marks, frame⟩ :=
        recordServed_stored .productFull (BitVec.ofNat 32 cells.length) k i o s
      have full : 12 ≤ ((recordServed k i o s).slot k).cells.length := full
      rw [applyAddProduct_full full] at runs
      exact ⟨_, runs, completes, ⟨recency, marks, frame⟩, slots, pool⟩
    · obtain ⟨completes, slots, recency, pool, marks, frame⟩ :=
        recordServed_stored .badArgument (BitVec.ofNat 32 cells.length) k i o s
      have bad : decodeProduct (recordServed k i o s).change.block.payload 0 = none := decodeProduct_none pass ride
      have room : ((recordServed k i o s).slot k).cells.length < 12 := room
      rw [applyAddProduct_none room bad] at runs
      exact ⟨_, runs, completes, ⟨recency, marks, frame⟩, slots, pool⟩
    · have apart : k ≠ v := cellVictim_ne gives
      have later : exec (.addProduct i w p) (handOver v (cleanlyEvicted v s)) =
          .next (settle (applyAddProduct k (recordServed k i o (handOver v (cleanlyEvicted v s))))) :=
        exec_of_recordReady (recordReady_shortage ready apart unlisted) (by decide)
      have slot : (handOver v (cleanlyEvicted v s)).slot k = s.slot k := by
        rw [handOver_slot_ne _ _ _ apart, ← cleanEvict_eq, cleanEvict_slot_ne _ _ _ apart]
      have decoded : decodeProduct (recordServed k i o s).change.block.payload 0 = some e := decoded
      have decoded' : decodeProduct (recordServed k i o (handOver v (cleanlyEvicted v s))).change.block.payload 0 = some e :=
        decoded
      have count : countResult k (recordServed k i o (handOver v (cleanlyEvicted v s))) =
          countResult k (recordServed k i o s) := by
        rw [countResult, countResult, recordServed_slot, recordServed_slot, slot]
      have room : ((recordServed k i o s).slot k).cells.length < 12 := room
      have room' : ((recordServed k i o (handOver v (cleanlyEvicted v s))).slot k).cells.length < 12 := by
        rw [recordServed_slot, slot]
        exact room
      have short : s.pool.free.length < 1 := by simp [none]
      rw [runs, later, applyAddProduct_some room decoded, applyAddProduct_some room' decoded', count,
        freeCleanFor_recordServed i o short gives fun u mem => (unlisted u mem).1]
    · have decoded : decodeProduct (recordServed k i o s).change.block.payload 0 = some e := decoded
      have room : ((recordServed k i o s).slot k).cells.length < 12 := room
      have nobody := (cellVictim_recordServed k i o s).trans nobody
      have short : ¬ 1 ≤ (recordServed k i o s).pool.free.length := by
        have none : (recordServed k i o s).pool.free = [] := none
        simp [none]
      rw [applyAddProduct_some room decoded, freeCleanFor_none _ nobody, if_neg short] at runs
      exact ⟨_, runs, recordServed_cellShort (BitVec.ofNat 32 cells.length) k i o s⟩
  · have runs : exec (.removeProduct i w p) s = .next (settle (applyRemoveProduct k (recordServed k i o s))) :=
      exec_of_recordReady ready (by decide)
    refine ⟨fun c found => ?_, fun absent => ?_⟩
    · have found' : cellWithTag k (halfAt (recordServed k i o s).change.block.payload 0) (recordServed k i o s) = some c :=
        found
      have count : countResult k (amendRecord k id (returnCell k c (recordServed k i o s))) =
          BitVec.ofNat 32 (cells.length - 1) := by
        rw [countResult, amendRecord_returnCell]
        refine (congrArg (fun x : Slot => BitVec.ofNat 32 x.cells.length) (get_set_eq _ k _)).trans ?_
        exact congrArg _ (List.length_erase_of_mem (List.mem_of_find?_eq_some found))
      rw [applyRemoveProduct_some found', count, amendRecord_returnCell] at runs
      exact ⟨_, runs, blockCompletes_recordServed (k := k) .ok _ rfl rfl,
        ⟨rfl, rfl, fun _ apart => get_set_ne _ _ apart, rfl, rfl, rfl, rfl, rfl, rfl, keepsHost_refl s⟩,
        get_set_eq _ k _, rfl⟩
    · obtain ⟨completes, slots, recency, pool, marks, frame⟩ :=
        recordServed_stored .noProduct (BitVec.ofNat 32 cells.length) k i o s
      have absent : cellWithTag k (halfAt (recordServed k i o s).change.block.payload 0) (recordServed k i o s) = none :=
        List.find?_eq_none.mpr fun c mem => by
          rw [beq_iff_eq]
          exact absent c mem
      rw [applyRemoveProduct_none absent] at runs
      exact ⟨_, runs, completes, ⟨recency, marks, frame⟩, slots, pool⟩

end Sys2Proof.Machine
end

section
/-! The home record's image (R13, R15, R17, R193), with the settling of O57. -/

namespace Sys2Proof.Machine

/-! ## Bytes of a list -/

theorem byteAt_append_right (pre l : List Byte) (j : Nat) : byteAt (pre ++ l) (pre.length + j) = byteAt l j := by
  rw [byteAt, List.getD_append_right _ _ _ _ (Nat.le_add_right _ _), Nat.add_sub_cancel_left]
  rfl

theorem halfAt_append_right (pre l : List Byte) (j : Nat) : halfAt (pre ++ l) (pre.length + j) = halfAt l j := by
  rw [halfAt, Nat.add_assoc, byteAt_append_right, byteAt_append_right]
  rfl

theorem half_bytes (h : Half) : h.extractLsb' 8 8 ++ h.extractLsb' 0 8 = h := issuer_bytes h

theorem word_bytes (w : Word) :
    w.extractLsb' 24 8 ++ w.extractLsb' 16 8 ++ w.extractLsb' 8 8 ++ w.extractLsb' 0 8 = w := by
  rw [extract_append w (show 24 = 16 + 8 from rfl), extract_append w (show 16 = 8 + 8 from rfl),
    extract_append w (show 8 = 0 + 8 from rfl)]
  exact extract_all w

theorem ident_bytes (x : Ident) :
    x.extractLsb' 48 8 ++ x.extractLsb' 40 8 ++ x.extractLsb' 32 8 ++ x.extractLsb' 24 8 ++ x.extractLsb' 16 8 ++
      x.extractLsb' 8 8 ++ x.extractLsb' 0 8 = x := by
  rw [extract_append x (show 48 = 40 + 8 from rfl), extract_append x (show 40 = 32 + 8 from rfl),
    extract_append x (show 32 = 24 + 8 from rfl), extract_append x (show 24 = 16 + 8 from rfl),
    extract_append x (show 16 = 8 + 8 from rfl), extract_append x (show 8 = 0 + 8 from rfl)]
  exact extract_all x

/-! ## Products (Table 12.2) -/

theorem encodeProduct_length (p : ProductEntry) : (encodeProduct p).length = 12 := rfl

theorem kindOf_code (k : ProductKind) : kindOf k.code = some k := by
  cases k <;> rfl

theorem decodeProduct_encodeProduct (pre l : List Byte) (p : ProductEntry) :
    decodeProduct (pre ++ (encodeProduct p ++ l)) pre.length = some p := by
  have kind : byteAt (pre ++ (encodeProduct p ++ l)) pre.length = p.kind.code := byteAt_append_right pre _ 0
  have zone : byteAt (pre ++ (encodeProduct p ++ l)) (pre.length + 1) = p.zoneMask := byteAt_append_right pre _ 1
  have tag : halfAt (pre ++ (encodeProduct p ++ l)) (pre.length + 2) = p.tag :=
    (halfAt_append_right pre _ 2).trans (half_bytes p.tag)
  have first : halfAt (pre ++ (encodeProduct p ++ l)) (pre.length + 4) = p.firstDay :=
    (halfAt_append_right pre _ 4).trans (half_bytes p.firstDay)
  have last : halfAt (pre ++ (encodeProduct p ++ l)) (pre.length + 6) = p.lastDay :=
    (halfAt_append_right pre _ 6).trans (half_bytes p.lastDay)
  have rides : halfAt (pre ++ (encodeProduct p ++ l)) (pre.length + 8) = p.rides :=
    (halfAt_append_right pre _ 8).trans (half_bytes p.rides)
  have uses : halfAt (pre ++ (encodeProduct p ++ l)) (pre.length + 10) = p.uses :=
    (halfAt_append_right pre _ 10).trans (half_bytes p.uses)
  rw [decodeProduct, kind, kindOf_code, zone, tag, first, last, rides, uses]
  rfl

theorem decodeProducts_encode (pre post : List Byte) (ps : List ProductEntry) :
    decodeProducts (pre ++ (ps.flatMap encodeProduct ++ post)) pre.length ps.length = some ps := by
  induction ps generalizing pre with
  | nil => rfl
  | cons p ps ih =>
    have first := decodeProduct_encodeProduct pre (ps.flatMap encodeProduct ++ post) p
    have rest := ih (pre ++ encodeProduct p)
    rw [List.length_append, encodeProduct_length, List.append_assoc] at rest
    rw [List.flatMap_cons, List.append_assoc, List.length_cons, decodeProducts, first, rest]

theorem flatMap_encodeProduct_length (ps : List ProductEntry) : (ps.flatMap encodeProduct).length = 12 * ps.length := by
  induction ps with
  | nil => rfl
  | cons p ps ih =>
    rw [List.flatMap_cons, List.length_append, encodeProduct_length, ih, List.length_cons]
    omega

/-! ## The core (Table 12.1) -/

/-- Table 12.1: the forty bytes before the product entries. -/
def coreBytes (r : Record) (count : Nat) (check : Half) : List Byte :=
  [r.ident.extractLsb' 0 8, r.ident.extractLsb' 8 8, r.ident.extractLsb' 16 8, r.ident.extractLsb' 24 8,
    r.ident.extractLsb' 32 8, r.ident.extractLsb' 40 8, r.ident.extractLsb' 48 8, r.state.code, (BitVec.ofInt 32
    r.balance).extractLsb' 0 8, (BitVec.ofInt 32 r.balance).extractLsb' 8 8, (BitVec.ofInt 32 r.balance).extractLsb'
    16 8, (BitVec.ofInt 32 r.balance).extractLsb' 24 8, r.entryStamp.extractLsb' 0 8, r.entryStamp.extractLsb' 8 8,
    r.entryStamp.extractLsb' 16 8, r.entryStamp.extractLsb' 24 8, r.refillMark.extractLsb' 0 8,
    r.refillMark.extractLsb' 8 8, r.refillMark.extractLsb' 16 8, r.refillMark.extractLsb' 24 8,
    r.lastTapStamp.extractLsb' 0 8, r.lastTapStamp.extractLsb' 8 8, r.lastTapStamp.extractLsb' 16 8,
    r.lastTapStamp.extractLsb' 24 8, r.tapCount.extractLsb' 0 8, r.tapCount.extractLsb' 8 8,
    r.generation.extractLsb' 0 8, r.generation.extractLsb' 8 8, check.extractLsb' 0 8, check.extractLsb' 8 8,
    BitVec.ofNat 8 r.fareClass.val, BitVec.ofNat 8 count, r.trip.code, BitVec.ofNat 8 r.entryGroup.val,
    r.entryEpoch, BitVec.ofNat 8 r.tokens.val, BitVec.ofNat 8 r.lastTapLine.val, r.deadlinePasses, r.blockedTaps,
    r.watchHits]

theorem imageBytes_eq (r : Record) (ps : List ProductEntry) (check : Half) :
    imageBytes r ps check =
      coreBytes r ps.length check ++ (ps.flatMap encodeProduct ++ List.replicate (144 - 12 * ps.length) 0) := by
  have length : (coreBytes r ps.length check ++ ps.flatMap encodeProduct).length = 40 + 12 * ps.length := by
    rw [List.length_append, flatMap_encodeProduct_length]
    rfl
  show (coreBytes r ps.length check ++ ps.flatMap encodeProduct) ++
    List.replicate (184 - (coreBytes r ps.length check ++ ps.flatMap encodeProduct).length) 0 = _
  rw [length, List.append_assoc]
  congr 3
  omega

/-- R15: the check value does not depend on the check value bytes. -/
theorem imageCheck_imageBytes (r : Record) (ps : List ProductEntry) (check : Half) :
    imageCheck (imageBytes r ps check) = imageCheck (imageBytes r ps 0) := by
  rw [imageBytes_eq, imageBytes_eq, imageCheck, imageCheck]
  exact congrArg crc rfl

/-! ## The fields of a core -/

section fields
variable (r : Record) (count : Nat) (check : Half) (rest : List Byte)

theorem core_balance (low : -65535 ≤ r.balance) (high : r.balance ≤ 16777215) :
    (wordAt (coreBytes r count check ++ rest) 8).toInt = r.balance := by
  have word : wordAt (coreBytes r count check ++ rest) 8 = BitVec.ofInt 32 r.balance := word_bytes _
  rw [word]
  exact BitVec.toInt_ofInt_eq_self (by decide) (by omega) (by omega)

/-- A byte that holds a number of a range of at most 256 gives it back. -/
theorem toNat_ofNat_val {n : Nat} (c : Fin n) (small : n ≤ 256) : (BitVec.ofNat 8 c.val).toNat = c.val := by
  rw [BitVec.toNat_ofNat]
  exact Nat.mod_eq_of_lt (lt_of_lt_of_le c.isLt small)

theorem ofNat_toNat_val {n : Nat} [NeZero n] (c : Fin n) (small : n ≤ 256) :
    Fin.ofNat n (BitVec.ofNat 8 c.val).toNat = c := by
  rw [toNat_ofNat_val c small]
  exact Fin.ext (Nat.mod_eq_of_lt c.isLt)

theorem code_of_not_empty {x : RecState} (state : x ≠ .empty) : x.code = 1 ∨ x.code = 2 := by
  cases x
  case empty => exact absurd rfl state
  case active => exact .inl rfl
  case blocked => exact .inr rfl

theorem tripCode (x : Trip) : x.code = 0 ∨ x.code = 1 := by
  cases x
  · exact .inl rfl
  · exact .inr rfl

theorem count_byte (few : count ≤ 12) : (byteAt (coreBytes r count check ++ rest) 31).toNat = count := by
  show (BitVec.ofNat 8 count).toNat = count
  rw [BitVec.toNat_ofNat]
  exact Nat.mod_eq_of_lt (by omega)

theorem coreValid_core (checked : imageCheck (coreBytes r count check ++ rest) = check) (state : r.state ≠ .empty)
    (low : -65535 ≤ r.balance) (high : r.balance ≤ 16777215) (few : count ≤ 12) :
    coreValid (coreBytes r count check ++ rest) = true := by
  have held : halfAt (coreBytes r count check ++ rest) 28 = check := half_bytes check
  have code : byteAt (coreBytes r count check ++ rest) 7 = r.state.code := rfl
  have trip : byteAt (coreBytes r count check ++ rest) 32 = r.trip.code := rfl
  have cls : (byteAt (coreBytes r count check ++ rest) 30).toNat = r.fareClass.val :=
    toNat_ofNat_val r.fareClass (by decide)
  have group : (byteAt (coreBytes r count check ++ rest) 33).toNat = r.entryGroup.val :=
    toNat_ofNat_val r.entryGroup (by decide)
  have line : (byteAt (coreBytes r count check ++ rest) 36).toNat = r.lastTapLine.val :=
    toNat_ofNat_val r.lastTapLine (by decide)
  have tokens : (byteAt (coreBytes r count check ++ rest) 35).toNat = r.tokens.val :=
    toNat_ofNat_val r.tokens (by decide)
  have inRange := (balanceInRange_iff r.balance).mpr ⟨low, high⟩
  simp only [coreValid, held, checked, code, trip, cls, group, line, tokens, count_byte r count check rest few,
    core_balance r count check rest low high, inRange, Bool.and_eq_true, decide_eq_true_eq, Bool.or_eq_true,
    beq_iff_eq, and_true, true_and]
  exact ⟨⟨⟨⟨⟨⟨code_of_not_empty state, r.fareClass.isLt⟩, few⟩, tripCode r.trip⟩, r.entryGroup.isLt⟩,
    r.lastTapLine.isLt⟩, r.tokens.isLt⟩

theorem core_ident : identAt (coreBytes r count check ++ rest) 0 = r.ident :=
  ident_bytes r.ident

theorem core_generation : halfAt (coreBytes r count check ++ rest) 26 = r.generation :=
  half_bytes r.generation

theorem core_entryStamp : wordAt (coreBytes r count check ++ rest) 12 = r.entryStamp :=
  word_bytes r.entryStamp

theorem core_refillMark : wordAt (coreBytes r count check ++ rest) 16 = r.refillMark :=
  word_bytes r.refillMark

theorem core_lastTapStamp : wordAt (coreBytes r count check ++ rest) 20 = r.lastTapStamp :=
  word_bytes r.lastTapStamp

theorem core_tapCount : halfAt (coreBytes r count check ++ rest) 24 = r.tapCount :=
  half_bytes r.tapCount

theorem decodeCore_core (state : r.state ≠ .empty) (low : -65535 ≤ r.balance) (high : r.balance ≤ 16777215) :
    decodeCore (coreBytes r count check ++ rest) = r := by
  have code : byteAt (coreBytes r count check ++ rest) 7 = r.state.code := rfl
  have trip : byteAt (coreBytes r count check ++ rest) 32 = r.trip.code := rfl
  have ident := core_ident r count check rest
  have generation := core_generation r count check rest
  have entryStamp := core_entryStamp r count check rest
  have refillMark := core_refillMark r count check rest
  have lastTapStamp := core_lastTapStamp r count check rest
  have tapCount := core_tapCount r count check rest
  have cls : Fin.ofNat 8 (byteAt (coreBytes r count check ++ rest) 30).toNat = r.fareClass :=
    ofNat_toNat_val r.fareClass (by decide)
  have group : Fin.ofNat 8 (byteAt (coreBytes r count check ++ rest) 33).toNat = r.entryGroup :=
    ofNat_toNat_val r.entryGroup (by decide)
  have line : Fin.ofNat 16 (byteAt (coreBytes r count check ++ rest) 36).toNat = r.lastTapLine :=
    ofNat_toNat_val r.lastTapLine (by decide)
  have tokens : Fin.ofNat 16 (byteAt (coreBytes r count check ++ rest) 35).toNat = r.tokens :=
    ofNat_toNat_val r.tokens (by decide)
  have stateBack : (if r.state.code = 2 then RecState.blocked else .active) = r.state := by
    cases standing : r.state
    case empty => exact absurd standing state
    case active => rfl
    case blocked => rfl
  have tripBack : (if r.trip.code = 1 then Trip.within else .out) = r.trip := by
    cases r.trip <;> rfl
  have balance := core_balance r count check rest low high
  have epoch : byteAt (coreBytes r count check ++ rest) 34 = r.entryEpoch := rfl
  have passes : byteAt (coreBytes r count check ++ rest) 37 = r.deadlinePasses := rfl
  have blockedTaps : byteAt (coreBytes r count check ++ rest) 38 = r.blockedTaps := rfl
  have watchHits : byteAt (coreBytes r count check ++ rest) 39 = r.watchHits := rfl
  generalize coreBytes r count check ++ rest = l at *
  rw [decodeCore, code, trip, ident, generation, entryStamp, refillMark, lastTapStamp, tapCount, cls, group, line,
    tokens, balance, stateBack, tripBack, epoch, passes, blockedTaps, watchHits]

end fields

/-! ## The image -/

theorem decodeImage_empty (r : Record) (ps : List ProductEntry) (state : r.state = .empty) :
    decodeImage (encodeImage r ps) = .valid (Record.empty 0) [] := by
  have code : byteAt (encodeImage r ps) 7 = 0 := by
    rw [encodeImage, imageBytes_eq]
    exact congrArg RecState.code state
  rw [decodeImage, if_pos code]

theorem decodeImage_encodeImage (r : Record) (ps : List ProductEntry) (state : r.state ≠ .empty)
    (low : -65535 ≤ r.balance) (high : r.balance ≤ 16777215) (few : ps.length ≤ 12) :
    decodeImage (encodeImage r ps) = .valid r ps := by
  have checked : imageCheck (encodeImage r ps) = imageCheck (imageBytes r ps 0) := imageCheck_imageBytes r ps _
  rw [encodeImage] at checked ⊢
  generalize imageCheck (imageBytes r ps 0) = check at checked ⊢
  rw [imageBytes_eq] at checked ⊢
  generalize List.replicate (144 - 12 * ps.length) (0 : Byte) = post at checked ⊢
  have code : byteAt (coreBytes r ps.length check ++ (ps.flatMap encodeProduct ++ post)) 7 ≠ 0 := by
    rcases code_of_not_empty state with one | two
    · exact fun zero => absurd (one.symm.trans zero) (by decide)
    · exact fun zero => absurd (two.symm.trans zero) (by decide)
  have products := decodeProducts_encode (coreBytes r ps.length check) post ps
  rw [show (coreBytes r ps.length check).length = 40 from rfl] at products
  rw [decodeImage, if_neg code, coreValid_core r ps.length check _ checked state low high few, if_pos rfl,
    count_byte r ps.length check _ few, products, decodeCore_core r ps.length check _ state low high]

/-- Settles O57: the core read field by field, the product areas by induction on the list. -/
theorem homeImageRoundTrip : Obligations.HomeImageRoundTrip := by
  refine ⟨fun r ps check few => ?_, decodeImage_empty, decodeImage_encodeImage⟩
  intro balance
  rw [imageBytes_eq, ← List.append_assoc]
  rfl

end Sys2Proof.Machine
end

section
/-! RUN, STOP, drain completion, the cleaner and reclaim (R189 to R191, R40, R44), with the settling of O6 and O35. -/

namespace Sys2Proof.Machine

/-! ## The controls of Engine Control -/

/-- R190, R144: STOP sets the pending stop of a unit with a block in progress. -/
theorem enterDraining_eq (s : State) :
    enterDraining s =
      { s with
        engine := { s.engine with state := .draining, phase := .ending },
        change :=
          { s.change with
            stop := if s.change.busy = true ∧ s.change.stop = .none then .suspend else s.change.stop } } := by
  rw [enterDraining, drainStop]
  by_cases working : s.change.busy = true ∧ s.change.stop = .none
  · have test : (s.change.busy && s.change.stop == .none) = true := by simp [working.1, working.2]
    rw [if_pos working]
    exact if_pos test
  · have test : ¬ (s.change.busy && s.change.stop == .none) = true := by simpa using working
    rw [if_neg working]
    exact if_neg test

theorem finishDrain_eq (s : State) :
    finishDrain s =
      { s with
        engine :=
          { s.engine with
            state := .stopped, phase := .none,
            unflushed := slotCount (fun x => x.state == .resident && x.wbFault) s },
        attn := { s.attn with pending := s.attn.pending ||| 0x800#12 } } := by
  rw [finishDrain, raise_eq_raised, raised_of_isOpen _ rfl]
  rfl

/-- Settles O6: each control under its condition, and the end of a drain. -/
theorem runStopAndDrainEnd : Obligations.RunStopAndDrainEnd := by
  refine ⟨fun s => ⟨fun stopped => ?_, fun other => ?_, fun running => ?_, fun other => ?_⟩, fun s due => ?_⟩
  · exact congrArg Host.Outcome.next (if_pos stopped)
  · exact congrArg Host.Outcome.next (if_neg other)
  · have runs : exec .stop s = .next (settle (enterDraining s)) := congrArg Host.Outcome.next (if_pos running)
    rw [runs, enterDraining_eq]
  · exact congrArg Host.Outcome.next (if_neg other)
  · have runs : exec .drainComplete s = .next (settle (finishDrain s)) := congrArg Host.Outcome.next (if_pos due)
    rw [runs, finishDrain_eq]

/-! ## Victims (R29) -/

theorem Slot.eligible_iff (x : Slot) :
    x.eligible = true ↔ x.state = .resident ∧ x.writeInFlight = false ∧ x.wbFault = false := by
  simp [Slot.eligible, and_assoc]

theorem Slot.cleanEligible_iff (x : Slot) :
    x.cleanEligible = true ↔ x.state = .resident ∧ x.writeInFlight = false ∧ x.wbFault = false ∧ x.dirty = false := by
  simp [Slot.cleanEligible, Slot.eligible_iff, and_assoc]

theorem Slot.dirtyEligible_iff (x : Slot) :
    x.dirtyEligible = true ↔ x.state = .resident ∧ x.writeInFlight = false ∧ x.wbFault = false ∧ x.dirty = true := by
  simp [Slot.dirtyEligible, Slot.eligible_iff, and_assoc]

/-- R29: the slot of a kind nearest the tail of the recency list. -/
theorem victim_eq_some_iff (s : State) (p : Slot → Bool) (i : SlotNo) :
    victim p s = some i ↔
      p (s.slot i) = true ∧ ∃ head tail, s.recency = head ++ i :: tail ∧ ∀ j, j ∈ tail → p (s.slot j) = false := by
  rw [victim, List.find?_eq_some_iff_append]
  simp only [Bool.not_eq_true']
  refine and_congr_right fun _ => ⟨fun ⟨before, after, split, passed⟩ => ?_, fun ⟨head, tail, split, passed⟩ => ?_⟩
  · refine ⟨after.reverse, before.reverse, ?_, fun j mem => passed j (List.mem_reverse.mp mem)⟩
    rw [← List.reverse_reverse (as := s.recency), split]
    simp
  · refine ⟨tail.reverse, head.reverse, ?_, fun j mem => passed j (List.mem_reverse.mp mem)⟩
    rw [split]
    simp

theorem victim_satisfies {s : State} {p : Slot → Bool} {i : SlotNo} (h : victim p s = some i) : p (s.slot i) = true :=
  ((victim_eq_some_iff s p i).mp h).1

/-! ## The cleaner (R40) -/

theorem cleanerActs_iff (s : State) :
    cleanerActs s = true ↔
      s.engine.state = .running ∧ s.counts.cleanerWrites < 2 ∧
        s.slots.toList.countP (fun x => x.state == .free || x.cleanEligible) < 16 := by
  simp [cleanerActs, State.running, slotCount, and_assoc]

/-- R40, R38: a turn of the cleaner that finds a slot, as one state. -/
theorem cleanerOne_eq {s : State} {i : SlotNo} (acts : cleanerActs s = true)
    (found : victim Slot.dirtyEligible s = some i) :
    cleanerOne s =
      { s with
        slots :=
          s.slots.set i.val
            { s.slot i with
              record := { (s.slot i).record with generation := (s.slot i).record.generation + 1 },
              dirty := false, wbFault := false, writeInFlight := true, cleaner := true, writeReqs := [],
              nextReqs := [] }
            i.isLt,
        counts := { s.counts with cleanerWrites := s.counts.cleanerWrites + 1 },
        port := { s.port with list := s.port.list ++ [writeBackAsked i s] } } := by
  rw [cleanerOne, if_pos acts, found]
  simp only [flushWrite_eq, State.modCounts, State.setCounts, State.modSlot, State.setSlot, State.setSlots, State.slot,
    get_set_eq, set_set_eq]

/-! ## Hand-over and reclaim (R43, R44) -/

/-- R43: what a hand-over to the oldest entry leaves. -/
theorem handOver_fields {i : SlotNo} {s : State} {w : Waiter} {ws : List Waiter} (waits : s.slotWait = w :: ws) :
    let k := waiterKey s w
    let t := handOver i s
    t.slots =
        s.slots.set i.val
          { Slot.unused with
            state := .fetching, key := k, waiting := s.slotWait.filter fun v => waiterKey s v == k } i.isLt ∧
      t.slotWait = (s.slotWait.filter fun v => waiterKey s v != k) ∧
      t.port = { s.port with list := s.port.list ++ [.fetch i k (homeAddr s k)] } ∧
      t.counts = { s.counts with misses := s.counts.misses + 1 } ∧
      (∀ c x, .tap c ∈ s.slotWait → s.ctx c = some x →
        t.ctx c = if x.key = k then some { x with awaitRecord := true } else s.ctx c) ∧
      (∀ c, .tap c ∉ s.slotWait → t.ctx c = s.ctx c) ∧ t.recency = s.recency ∧ t.pool = s.pool ∧
      t.attn = s.attn ∧ t.engine = s.engine ∧ keepsUnits s t ∧ keepsHost s t := by
  intro k t
  have same : t = _ := handOver_cons waits
  have ctx (c : CtxNo) : t.ctx c =
      (awaitAll (s.slotWait.filter fun v => waiterKey s v == k) s).ctx c := by
    rw [same]
    rfl
  clear_value t
  subst same
  refine ⟨rfl, rfl, rfl, rfl, fun c x mem held => ?_, fun c unlisted => ?_, rfl, rfl, rfl, rfl, ⟨rfl, rfl, rfl, rfl⟩,
    keepsHost_refl s⟩
  · have key : waiterKey s (.tap c) = x.key := by
      simp only [waiterKey, held]
    simp only [ctx, awaitAll_ctx, List.mem_filter, key, held, mem, true_and, beq_iff_eq, Option.map_some]
  · rw [ctx, awaitAll_ctx, if_neg fun mem => unlisted (List.mem_filter.mp mem).1]

/-- R44: a turn of reclaim that finds a slot. -/
theorem reclaimOne_eq {s : State} {i : SlotNo} (waits : s.slotWait ≠ []) (found : victim Slot.cleanEligible s = some i) :
    reclaimOne s = handOver i (cleanlyEvicted i s) := by
  obtain ⟨w, ws, list⟩ := List.exists_cons_of_ne_nil waits
  simp only [reclaimOne, list, found, cleanEvict_eq]

theorem reclaimDue_iff (s : State) :
    reclaimDue s = true ↔ s.slotWait ≠ [] ∧ ∃ i, victim Slot.cleanEligible s = some i := by
  simp [reclaimDue, Option.isSome_iff_exists]

theorem cleanerDue_iff (s : State) :
    cleanerDue s = true ↔ cleanerActs s = true ∧ ∃ i, victim Slot.dirtyEligible s = some i := by
  simp [cleanerDue, Option.isSome_iff_exists]

theorem exec_cleanerWrite {s : State} (due : cleanerDue s = true) : exec .cleanerWrite s = .next (settle (cleanerOne s)) :=
  congrArg Host.Outcome.next (if_pos due)

theorem exec_reclaim {s : State} (due : reclaimDue s = true) : exec .reclaim s = .next (settle (reclaimOne s)) :=
  congrArg Host.Outcome.next (if_pos due)

/-- Settles O35: the cleaner and reclaim. -/
theorem cleanerAndReclaim : Obligations.CleanerAndReclaim := by
  refine ⟨fun x => ⟨x.cleanEligible_iff, x.dirtyEligible_iff⟩, victim_eq_some_iff, cleanerActs_iff,
    fun s i acts found => ?_, fun s i => ⟨handOver_nil i s, fun w ws waits => handOver_fields waits⟩,
    fun s i w ws waits found => ?_⟩
  · rw [exec_cleanerWrite ((cleanerDue_iff s).mpr ⟨acts, i, found⟩), cleanerOne_eq acts found]
  · intro k
    have nonempty : s.slotWait ≠ [] := by simp [waits]
    have waits' : (cleanlyEvicted i s).slotWait = w :: ws := waits
    have runs := exec_reclaim ((reclaimDue_iff s).mpr ⟨nonempty, i, found⟩)
    rw [reclaimOne_eq nonempty found] at runs
    obtain ⟨slots, list, port, counts, handed, others, recency, pool, attn, engine, units, host⟩ :=
      handOver_fields (i := i) waits'
    generalize handOver i (cleanlyEvicted i s) = t at *
    refine ⟨t, runs, ?_, list, port, recency, congrArg CellPool.free pool, counts, fun c x mem held key => ?_, others,
      fun j apart => ?_, attn, engine, units, host⟩
    · exact (congrArg (Vector.get · i) slots).trans (get_set_eq _ i _)
    · exact (handed c x mem held).trans (if_pos key)
    · refine (congrArg (Vector.get · j) slots).trans ((get_set_ne _ _ apart).trans (get_set_ne _ _ apart))

end Sys2Proof.Machine
end

section
/-! The ends of slot writes at the port, and the end of an eviction write (R36, Table 2.4), with the settling of O33. -/

namespace Sys2Proof.Machine

/-! ## Reclaim's turns (R44) -/

theorem iterate_fixed {f : State → State} {s : State} (fixed : f s = s) (n : Nat) : iterate f n s = s := by
  induction n with
  | zero => rfl
  | succ n ih => rw [iterate, fixed, ih]

theorem reclaimOne_nil {s : State} (h : s.slotWait = []) : reclaimOne s = s := by
  simp only [reclaimOne, h]

/-- R44: turns beyond the length of the slot-wait list change nothing. -/
theorem iterate_reclaimOne {s : State} {n m : Nat} (hn : s.slotWait.length ≤ n) (hm : s.slotWait.length ≤ m) :
    iterate reclaimOne n s = iterate reclaimOne m s := by
  induction n generalizing s m with
  | zero =>
    have fixed := reclaimOne_nil (List.eq_nil_of_length_eq_zero (Nat.le_zero.mp hn))
    rw [iterate_fixed fixed, iterate_fixed fixed]
  | succ n ih =>
    rcases reclaimOne_shorter s with fixed | shorter
    · rw [iterate_fixed fixed, iterate_fixed fixed]
    · obtain ⟨m, rfl⟩ : ∃ k, m = k + 1 := ⟨m - 1, by omega⟩
      rw [iterate, iterate]
      exact ih (by omega) (by omega)

/-- R44: reclaim is its first turn and then reclaim again. -/
theorem reclaimRun_reclaimOne (s : State) : reclaimRun (reclaimOne s) = reclaimRun s := by
  rcases reclaimOne_shorter s with fixed | shorter
  · rw [fixed]
  · obtain ⟨n, length⟩ : ∃ n, s.slotWait.length = n + 1 := ⟨s.slotWait.length - 1, by omega⟩
    rw [reclaimRun, reclaimRun, length, iterate]
    exact iterate_reclaimOne (Nat.le_refl _) (by omega)

/-! ## After an eviction that did not free its slot (R36) -/

theorem seekAfterReclaim_nil {s : State} (h : s.slotWait = []) : seekAfterReclaim s = s := by
  rw [seekAfterReclaim, reclaimRun_nil s h]
  exact if_pos (by rw [h]; rfl)

theorem seekAfterReclaim_clean {s : State} {k : SlotNo} (waits : s.slotWait ≠ [])
    (found : victim Slot.cleanEligible s = some k) :
    seekAfterReclaim s = seekAfterReclaim (handOver k (cleanlyEvicted k s)) := by
  rw [← reclaimOne_eq waits found, seekAfterReclaim, seekAfterReclaim, reclaimRun_reclaimOne]

theorem seekAfterReclaim_none {s : State} (waits : s.slotWait ≠ []) (none : victim Slot.cleanEligible s = none) :
    seekAfterReclaim s = seekDirtyVictim s := by
  obtain ⟨w, ws, list⟩ := List.exists_cons_of_ne_nil waits
  have fixed : reclaimOne s = s := by
    simp only [reclaimOne, list, none]
  have run : reclaimRun s = s := iterate_fixed fixed _
  rw [seekAfterReclaim, run]
  exact if_neg (by simp [waits])

/-! ## The ends of a write-back (R62, R66, R67) -/

/-- R62, R66: the last beat of a write is taken by memory, and the operation leaves the in-flight set. -/
def writeAcked (j : Nat) (o : Op) (s : State) : State :=
  { s with
    port := { s.port with inFlight := s.port.inFlight.eraseIdx j }, hostMem := s.hostMem.takeBeat o.beat }

/-- R36, R39: the end of a slot's write, as its kind gives. -/
def slotWriteEnds (i : SlotNo) (ok : Bool) (s : State) : State :=
  if (s.slot i).writeInFlight then flushDone i ok s else evictionDone i ok s

theorem deliverEnd_writeBack {o : Op} {i : SlotNo} {k : Key} {a : Word} {image : List Word} (ok : Bool) (s : State)
    (request : o.request = .writeBack i k a image) : deliverEnd o ok s = slotWriteEnds i ok s := by
  simp only [deliverEnd, request]
  rfl

/-- R66: the acknowledgement of a write-back's last beat. -/
theorem endEvent_lastAck {s : State} {j : Nat} {i : SlotNo} {o : Op} {test : Request → Bool → Bool}
    (awaits : writeAwaitsLast j i o s) (passes : test o.request true = true) :
    endEvent test j (.response .ack) s = settle (slotWriteEnds i true (writeAcked j o s)) := by
  obtain ⟨held, acked, k, a, image, request⟩ := awaits
  have ends : o.endBy s (.response .ack) = some ({ o with acked := o.acked + 1 }, .ok) := by
    simp [Op.endBy, Op.respond, Op.finished, request, acked, Request.writes]
  have beat : o.beat.write = true := by
    simp [Op.beat, request]
  rw [endEvent_of_endBy held ends passes, deliverEnd_writeBack (o := { o with acked := o.acked + 1 }) _ _ request,
    endOp_ok, ackEnd, ackBeat, takeBeat_of_write s beat]
  rfl

/-- R67: a write-back that ends with a fault. -/
theorem endEvent_writeFault {s : State} {j : Nat} {i : SlotNo} {o : Op} {e : BusEnd} {out : OpOutcome}
    {test : Request → Bool → Bool} (held : s.op j = some o) (request : ∃ k a image, o.request = .writeBack i k a image)
    (ends : o.endBy s e = some (o, out)) (fault : out ≠ .ok) (passes : test o.request false = true) :
    endEvent test j e s = settle (slotWriteEnds i false (endOp j o out s)) := by
  obtain ⟨k, a, image, request⟩ := request
  rw [endEvent_fault held ends fault passes, deliverEnd_writeBack _ _ request]

theorem isEvictionWrite_of {s : State} {i : SlotNo} {q : Request} (request : ∃ k a image, q = .writeBack i k a image)
    (eviction : (s.slot i).writeInFlight = false) : isEvictionWrite s q = true := by
  obtain ⟨k, a, image, rfl⟩ := request
  simp [isEvictionWrite, eviction]

theorem isFlushWrite_of {s : State} {i : SlotNo} {q : Request} (request : ∃ k a image, q = .writeBack i k a image)
    (writing : (s.slot i).writeInFlight = true) : isFlushWrite s q = true := by
  obtain ⟨k, a, image, rfl⟩ := request
  exact writing

theorem slotWriteEnds_eviction {s : State} {i : SlotNo} (ok : Bool) (eviction : (s.slot i).writeInFlight = false) :
    slotWriteEnds i ok s = evictionDone i ok s := if_neg (by simp [eviction])

theorem slotWriteEnds_flush {s : State} {i : SlotNo} (ok : Bool) (writing : (s.slot i).writeInFlight = true) :
    slotWriteEnds i ok s = flushDone i ok s := if_pos writing

/-- R36: EVICTION_WRITE_COMPLETE with the last acknowledgement. -/
theorem exec_evictionAcked {s : State} {j : Nat} {i : SlotNo} {o : Op} (awaits : writeAwaitsLast j i o s)
    (eviction : (s.slot i).writeInFlight = false) :
    exec (.evictionWriteComplete j (.response .ack)) s = .next (settle (evictionDone i true (writeAcked j o s))) := by
  rw [← slotWriteEnds_eviction true (s := writeAcked j o s) eviction]
  exact congrArg Host.Outcome.next (endEvent_lastAck awaits (isEvictionWrite_of awaits.2.2 eviction))

theorem endOp_slot (j : Nat) (o : Op) (s : State) {out : OpOutcome} (fault : out ≠ .ok) (i : SlotNo) :
    (endOp j o out s).slot i = s.slot i := by
  rw [endOp_fault j o s fault]
  rfl

/-- R36: EVICTION_WRITE_COMPLETE with a fault. -/
theorem exec_evictionFault {s : State} {j : Nat} {i : SlotNo} {o : Op} {e : BusEnd} {out : OpOutcome}
    (held : s.op j = some o) (request : ∃ k a image, o.request = .writeBack i k a image)
    (eviction : (s.slot i).writeInFlight = false) (ends : o.endBy s e = some (o, out)) (fault : out ≠ .ok) :
    exec (.evictionWriteComplete j e) s = .next (settle (evictionDone i false (endOp j o out s))) := by
  rw [← slotWriteEnds_eviction false (s := endOp j o out s) ((congrArg _ (endOp_slot j o s fault i)).trans eviction)]
  exact congrArg Host.Outcome.next (endEvent_writeFault held request ends fault (isEvictionWrite_of request eviction))

/-! ## The end of an eviction write (R36, Table 2.4) -/

/-- R36, R51: slot `i` FREE, its cells returned. -/
def slotFreed (i : SlotNo) (s : State) : State :=
  { s with
    slots := s.slots.set i.val Slot.unused i.isLt,
    pool := { s.pool with free := (s.slot i).cells.reverse ++ s.pool.free } }

theorem slotFreed_eq (i : SlotNo) (s : State) : (returnCells i s).setSlot i Slot.unused = slotFreed i s := by
  rw [returnCells_eq]
  simp only [State.setSlot, State.setSlots, set_set_eq, slotFreed]

theorem evictionDone_freed {i : SlotNo} {s : State} (unrescued : (s.slot i).rescued = false) :
    evictionDone i true s =
      answerAll true (s.slot i).record.generation (s.slot i).writeReqs (handOver i (slotFreed i s)) := by
  rw [evictionDone, slotFreed_eq]
  exact if_pos (by simp [unrescued])

theorem evictionDone_returned {i : SlotNo} {ok : Bool} {s : State} (kept : ok = false ∨ (s.slot i).rescued = true) :
    evictionDone i ok s =
      seekAfterReclaim
        (answerAll ok (s.slot i).record.generation (s.slot i).writeReqs
          (serve i (s.slot i).waiting (returnToResident i ok s))) := by
  refine if_neg fun freed => ?_
  simp only [Bool.and_eq_true, Bool.not_eq_true'] at freed
  rcases kept with failed | rescued
  · exact absurd (failed.symm.trans freed.1) nofun
  · exact absurd (rescued.symm.trans freed.2) nofun

/-- R36, R35: a slot returned RESIDENT, as one state. -/
theorem returnToResident_eq (i : SlotNo) (ok : Bool) (s : State) :
    returnToResident i ok s =
      { s with
        slots :=
          s.slots.set i.val
            { s.slot i with
              state := .resident, waiting := [], rescued := false, writeReqs := [], nextReqs := [],
              dirty := (s.slot i).dirty || !ok, wbFault := !ok }
            i.isLt,
        recency := i :: s.recency.filter (· != i) } := rfl

/-- Settles O33: the end of an eviction write. -/
theorem evictionWriteEnds : Obligations.EvictionWriteEnds := by
  refine ⟨fun s j i o awaits eviction => ⟨fun unrescued nobody => ?_, fun rescued => ?_⟩,
    fun s j i o w ws awaits eviction unrescued unasked waits => ?_,
    fun s j i o e out held request eviction ends fault => ?_,
    fun s => seekAfterReclaim_nil, fun s k => seekAfterReclaim_clean, fun s waits none => ?_⟩
  · have unrescued : ((writeAcked j o s).slot i).rescued = false := unrescued
    rw [exec_evictionAcked awaits eviction, evictionDone_freed unrescued,
      handOver_nil i (slotFreed i (writeAcked j o s)) nobody]
    rfl
  · have rescued : ((writeAcked j o s).slot i).rescued = true := rescued
    refine ⟨_, _, ?_, rfl, rfl⟩
    rw [exec_evictionAcked awaits eviction, evictionDone_returned (.inr rescued), returnToResident_eq, Bool.not_true,
      Bool.or_false]
    rfl
  · intro k
    have unrescued : ((writeAcked j o s).slot i).rescued = false := unrescued
    have unasked : ((writeAcked j o s).slot i).writeReqs = [] := unasked
    have runs := exec_evictionAcked awaits eviction
    rw [evictionDone_freed unrescued, unasked] at runs
    obtain ⟨slots, list, port, counts, handed, others, recency, pool, attn, engine, units, host⟩ :=
      handOver_fields (i := i) (s := slotFreed i (writeAcked j o s)) (show _ = w :: ws from waits)
    generalize handOver i (slotFreed i (writeAcked j o s)) = t at *
    refine ⟨t, runs, ?_, list, port, congrArg CellPool.free pool, counts, fun c x mem held key => ?_, others,
      fun n apart => ?_, recency, attn, engine, units⟩
    · exact (congrArg (Vector.get · i) slots).trans (get_set_eq _ i _)
    · exact (handed c x mem held).trans (if_pos key)
    · exact (congrArg (Vector.get · n) slots).trans ((get_set_ne _ _ apart).trans (get_set_ne _ _ apart))
  · have slot := endOp_slot j o s fault i
    have took := cutOffBeat_hostMem o.beat s
    have runs := exec_evictionFault held request eviction ends fault
    rw [evictionDone_returned (.inl rfl), slot, returnToResident_eq, slot, endOp_fault j o s fault, Bool.not_false,
      Bool.or_true] at runs
    generalize (cutOffBeat o.beat s).hostMem = m at runs took
    generalize (cutOffBeat o.beat s).freeIndex = n at runs
    exact ⟨_, runs, get_set_eq _ i _, rfl, fun k apart => get_set_ne _ _ apart, rfl, rfl, took, rfl, rfl, rfl, rfl,
      ⟨rfl, rfl, rfl, rfl⟩, rfl, rfl, rfl, rfl⟩
  · rw [seekAfterReclaim_none waits none]
    cases found : victim Slot.dirtyEligible s with
    | some k => exact seekDirtyVictim_some s found
    | none => exact seekDirtyVictim_none s found

end Sys2Proof.Machine
end

section
/-! The end of a flush-type write (R35, R39) and the answers to its requesters (R156 to R158, R166), with the settling of
O34. -/

namespace Sys2Proof.Machine

/-! ## Answers -/

/-- R158: a FLUSH ALL with answers outstanding. -/
theorem answerFlushAll_more {ok : Bool} {s : State} (more : 1 < s.change.outstanding) :
    answerFlushAll ok s =
      { s with
        change :=
          { s.change with
            outstanding := s.change.outstanding - 1,
            failures := s.change.failures + (if ok = true then 0 else 1) } } := by
  have left : ¬ s.change.outstanding - 1 = 0 := by omega
  cases ok <;> exact if_neg left

/-- R158: the last answer of a FLUSH ALL completes its block. -/
theorem answerFlushAll_last {ok : Bool} {s : State} (last : s.change.outstanding = 1) :
    answerFlushAll ok s =
      { s with
        change :=
          { s.change with
            state := .storing, outstanding := 0, failures := s.change.failures + (if ok = true then 0 else 1) },
        port :=
          { s.port with
            list :=
              s.port.list ++
                [.statusWrite s.change.blockAddr (BitVec.ofNat 32 (s.change.failures + (if ok = true then 0 else 1)))
                  (statusHalf
                    (if s.change.failures + (if ok = true then 0 else 1) = 0 then .ok else .memFault))] } } := by
  have left : s.change.outstanding - 1 = 0 := by omega
  have failed : (if ok = true then s.change.failures else s.change.failures + 1) =
      s.change.failures + (if ok = true then 0 else 1) := by
    cases ok <;> rfl
  rw [answerFlushAll, failed]
  generalize s.change.failures + (if ok = true then 0 else 1) = n
  refine (if_pos left).trans ?_
  rw [left, writeStatus]
  simp only [decide_eq_true_eq]
  rfl

/-- R36, R39: an answer writes the Change Unit, the request list, the urgent registers and the Attention Controller. -/
theorem answer_slots (ok : Bool) (g : Half) (q : Requester) (s : State) : (answer ok g q s).slots = s.slots := by
  cases q
  case flushAll =>
    show (answerFlushAll ok s).slots = s.slots
    unfold answerFlushAll
    generalize (if ok then s.change.failures else s.change.failures + 1) = failed
    dsimp only
    split <;> rfl
  case urgent =>
    show (finishUrgent _ g s).slots = s.slots
    rw [finishUrgent_eq_raised]
  all_goals rfl

theorem answerAll_cons (ok : Bool) (g : Half) (q : Requester) (qs : List Requester) (s : State) :
    answerAll ok g (q :: qs) s = answerAll ok g qs (answer ok g q s) := rfl

theorem answerAll_slots (ok : Bool) (g : Half) (qs : List Requester) (s : State) :
    (answerAll ok g qs s).slots = s.slots := by
  induction qs generalizing s with
  | nil => rfl
  | cons q qs ih => rw [answerAll_cons, ih, answer_slots]

/-! ## The end of a flush-type write (R35, R39) -/

/-- R35, R39: the flags and counts that the end of a flush-type write clears, as one state. -/
theorem clearFlush_eq (i : SlotNo) (s : State) :
    clearFlush i s =
      { s with
        slots :=
          s.slots.set i.val { s.slot i with writeInFlight := false, cleaner := false, writeReqs := [] } i.isLt,
        counts := writeCounted (s.slot i) s } := by
  rw [clearFlush, writeCounted]
  cases (s.slot i).cleaner <;> rfl

/-- R39: a RESIDENT slot at the end of its flush-type write. -/
def flushEnded (i : SlotNo) (ok : Bool) (s : State) : State :=
  { s with
    slots :=
      s.slots.set i.val
        { s.slot i with
          writeInFlight := false, cleaner := false, writeReqs := [], dirty := (s.slot i).dirty || !ok,
          wbFault := !ok }
        i.isLt,
    counts := writeCounted (s.slot i) s }

theorem flushDoneResident_eq (i : SlotNo) (ok : Bool) (s : State) :
    flushDoneResident i ok s =
      settleNext i (s.slot i).record.generation
        (answerAll ok (s.slot i).record.generation (s.slot i).writeReqs (flushEnded i ok s)) := by
  rw [flushDoneResident, clearFlush_eq]
  simp only [State.modSlot, State.setSlot, State.setSlots, State.slot, get_set_eq, set_set_eq, flushEnded]

theorem settleNext_none {i : SlotNo} {g : Half} {s : State} (none : (s.slot i).nextReqs = []) :
    settleNext i g s = s := by
  rw [settleNext]
  exact if_pos (by rw [none]; rfl)

theorem settleNext_again {i : SlotNo} {g : Half} {s : State} (some : (s.slot i).nextReqs ≠ [])
    (dirty : (s.slot i).dirty = true) : settleNext i g s = flushWrite i (s.slot i).nextReqs s := by
  rw [settleNext]
  exact (if_neg (by simp [some])).trans (if_pos (by simp [dirty]))

theorem settleNext_answered {i : SlotNo} {g : Half} {s : State} (some : (s.slot i).nextReqs ≠ [])
    (dirty : (s.slot i).dirty = false) (fault : (s.slot i).wbFault = false) :
    settleNext i g s =
      answerAll true g (s.slot i).nextReqs
        { s with slots := s.slots.set i.val { s.slot i with nextReqs := [] } i.isLt } := by
  rw [settleNext]
  exact (if_neg (by simp [some])).trans (if_neg (by simp [dirty, fault]))

theorem flushDone_resident {i : SlotNo} {s : State} (ok : Bool) (resident : (s.slot i).state = .resident) :
    flushDone i ok s = flushDoneResident i ok s := if_neg (by simp [resident])

theorem flushDone_owed {i : SlotNo} {s : State} (ok : Bool) (evicting : (s.slot i).state = .evicting) :
    flushDone i ok s = flushDoneOwed i ok s := if_pos (by simp [evicting])

/-- R39: FLUSH_WRITE_COMPLETE with the last acknowledgement. -/
theorem exec_flushAcked {s : State} {j : Nat} {i : SlotNo} {o : Op} (awaits : writeAwaitsLast j i o s)
    (writing : (s.slot i).writeInFlight = true) :
    exec (.flushWriteComplete j (.response .ack)) s = .next (settle (flushDone i true (writeAcked j o s))) := by
  rw [← slotWriteEnds_flush true (s := writeAcked j o s) writing]
  exact congrArg Host.Outcome.next (endEvent_lastAck awaits (isFlushWrite_of awaits.2.2 writing))

/-- R39: FLUSH_WRITE_COMPLETE with a fault. -/
theorem exec_flushFault {s : State} {j : Nat} {i : SlotNo} {o : Op} {e : BusEnd} {out : OpOutcome}
    (held : s.op j = some o) (request : ∃ k a image, o.request = .writeBack i k a image)
    (writing : (s.slot i).writeInFlight = true) (ends : o.endBy s e = some (o, out)) (fault : out ≠ .ok) :
    exec (.flushWriteComplete j e) s = .next (settle (flushDone i false (endOp j o out s))) := by
  rw [← slotWriteEnds_flush false (s := endOp j o out s) ((congrArg _ (endOp_slot j o s fault i)).trans writing)]
  exact congrArg Host.Outcome.next (endEvent_writeFault held request ends fault (isFlushWrite_of request writing))

/-! ## A slot owed an eviction (R35) -/

/-- R35: a clean record is evicted at once. -/
theorem flushDoneOwed_evicted {i : SlotNo} {s : State} (unasked : (s.slot i).writeReqs = [])
    (clean : (s.slot i).dirty = false) (unrescued : (s.slot i).rescued = false) (nobody : s.slotWait = []) :
    flushDoneOwed i true s =
      answerAll true (s.slot i).record.generation (s.slot i).nextReqs (cleanlyEvicted i (clearFlush i s)) := by
  have nobody' : (cleanEvict i (clearFlush i s)).slotWait = [] := by
    rw [cleanEvict_eq, clearFlush_eq]
    exact nobody
  rw [flushDoneOwed, unasked]
  refine (if_pos (by simp [clean])).trans ((if_neg (by simp [unrescued])).trans ?_)
  rw [← cleanEvict_eq]
  exact congrArg _ (handOver_nil i _ nobody')

/-- R35: a rescued slot with a clean record returns RESIDENT and is served. -/
theorem flushDoneOwed_rescued {i : SlotNo} {s : State} (unasked : (s.slot i).writeReqs = [])
    (clean : (s.slot i).dirty = false) (rescued : (s.slot i).rescued = true) :
    flushDoneOwed i true s =
      answerAll true (s.slot i).record.generation (s.slot i).nextReqs
        (serve i (s.slot i).waiting (returnToResident i true (clearFlush i s))) := by
  rw [flushDoneOwed, unasked]
  exact (if_pos (by simp [clean])).trans (if_pos rescued)

/-- R35: a record changed since, or one whose write failed, is written again. -/
theorem flushDoneOwed_again {i : SlotNo} {ok : Bool} {s : State} (unasked : (s.slot i).writeReqs = [])
    (again : ok = false ∨ (s.slot i).dirty = true) :
    flushDoneOwed i ok s = evictionWrite i (s.slot i).nextReqs (clearFlush i s) := by
  rw [flushDoneOwed, unasked]
  refine if_neg ?_
  rcases again with failed | dirty
  · simp [failed]
  · simp [dirty]

/-- R35, R33: the slot's eviction behind its write. -/
theorem cleanlyEvicted_clearFlush (i : SlotNo) (s : State) :
    cleanlyEvicted i (clearFlush i s) =
      { s with
        slots := s.slots.set i.val Slot.unused i.isLt, recency := s.recency.filter (· != i),
        pool := { s.pool with free := (s.slot i).cells.reverse ++ s.pool.free },
        counts :=
          { writeCounted (s.slot i) s with cleanEvictions := (writeCounted (s.slot i) s).cleanEvictions + 1 } } := by
  rw [cleanlyEvicted, clearFlush_eq]
  simp only [State.slot, get_set_eq, set_set_eq]

/-- R35: the slot as its eviction write leaves it. -/
theorem evictionWrite_clearFlush (i : SlotNo) (qs : List Requester) (s : State) :
    evictionWrite i qs (clearFlush i s) =
      { s with
        slots :=
          s.slots.set i.val
            { s.slot i with
              writeInFlight := false, cleaner := false, dirty := false, wbFault := false, writeReqs := qs,
              nextReqs := [], record := { (s.slot i).record with generation := (s.slot i).record.generation + 1 } }
            i.isLt,
        counts :=
          { writeCounted (s.slot i) s with dirtyEvictions := (writeCounted (s.slot i) s).dirtyEvictions + 1 },
        port := { s.port with list := s.port.list ++ [writeBackAsked i s] } } := by
  rw [evictionWrite_eq, clearFlush_eq]
  simp only [State.slot, get_set_eq, set_set_eq, writeBackAsked, State.products]

/-! ## The obligation -/

theorem answers_eq (s : State) (ok : Bool) (g : Half) :
    let stores (c : Status) (result : Word) (u : ChangeUnit) : State :=
      { s with
        change := { u with state := .storing },
        port :=
          { s.port with
            list := s.port.list ++ [.statusWrite s.change.blockAddr result (statusHalf c)] } }
    let failed : Nat := s.change.failures + (if ok = true then 0 else 1)
    answer ok g .retire s = stores (if ok = true then .ok else .memFault) (g.zeroExtend 32) s.change ∧
    answer ok g .changeFlush s = stores (if ok = true then .ok else .memFault) (g.zeroExtend 32) s.change ∧
    (1 < s.change.outstanding →
      answer ok g .flushAll s =
        { s with
          change := { s.change with outstanding := s.change.outstanding - 1, failures := failed } }) ∧
    (s.change.outstanding = 1 →
      answer ok g .flushAll s =
        stores (if failed = 0 then .ok else .memFault) (BitVec.ofNat 32 failed)
          { s.change with outstanding := 0, failures := failed }) ∧
    answer ok g .urgent s =
      { s with
        urgent := { s.urgent with state := .done, result := if ok = true then .ok else .memFault, value := g },
        attn := raised .urgentDone s } ∧
    answer ok g .drain s = s ∧ answerAll ok g [] s = s ∧
    ∀ q qs, answerAll ok g (q :: qs) s = answerAll ok g qs (answer ok g q s) :=
  ⟨rfl, rfl, answerFlushAll_more, answerFlushAll_last, finishUrgent_eq_raised _ g s, rfl, rfl, fun _ _ => rfl⟩

/-- R39: what the end of a write leaves at a RESIDENT slot once its requesters are answered. -/
theorem answered_flushEnded_slot (i : SlotNo) (ok : Bool) (g : Half) (qs : List Requester) (s : State) :
    (answerAll ok g qs (flushEnded i ok s)).slot i =
      { s.slot i with
        writeInFlight := false, cleaner := false, writeReqs := [], dirty := (s.slot i).dirty || !ok,
        wbFault := !ok } := by
  rw [State.slot, answerAll_slots]
  exact get_set_eq _ i _

/-- R39: the acknowledged write of a RESIDENT slot. -/
theorem flushEnded_acked (j : Nat) (i : SlotNo) (o : Op) (s : State) :
    flushEnded i true (writeAcked j o s) =
      { s with
        slots :=
          s.slots.set i.val
            { s.slot i with writeInFlight := false, cleaner := false, writeReqs := [], wbFault := false } i.isLt,
        counts := writeCounted (s.slot i) s,
        port := { s.port with inFlight := s.port.inFlight.eraseIdx j }, hostMem := s.hostMem.takeBeat o.beat } := by
  rw [flushEnded, Bool.not_true, Bool.or_false]
  rfl

/-- R39: the end of a RESIDENT slot's acknowledged write, by what waits for the next one. -/
theorem residentWriteAcked {s u : State} {j : Nat} {i : SlotNo} {o : Op} (awaits : writeAwaitsLast j i o s)
    (writing : (s.slot i).writeInFlight = true) (resident : (s.slot i).state = .resident)
    (answered :
      answerAll true (s.slot i).record.generation (s.slot i).writeReqs (flushEnded i true (writeAcked j o s)) = u) :
    ((s.slot i).nextReqs = [] → exec (.flushWriteComplete j (.response .ack)) s = .next (settle u)) ∧
    ((s.slot i).nextReqs ≠ [] → (s.slot i).dirty = false →
      exec (.flushWriteComplete j (.response .ack)) s =
        .next
          (settle
            (answerAll true (s.slot i).record.generation (s.slot i).nextReqs
              { u with
                slots :=
                  s.slots.set i.val
                    { s.slot i with
                      writeInFlight := false, cleaner := false, writeReqs := [], wbFault := false, nextReqs := [] }
                    i.isLt }))) ∧
    ((s.slot i).nextReqs ≠ [] → (s.slot i).dirty = true →
      exec (.flushWriteComplete j (.response .ack)) s = .next (settle (flushWrite i (s.slot i).nextReqs u))) := by
  have resident' : ((writeAcked j o s).slot i).state = .resident := resident
  have runs : exec (.flushWriteComplete j (.response .ack)) s =
      .next (settle (settleNext i (s.slot i).record.generation u)) := by
    rw [exec_flushAcked awaits writing, flushDone_resident true resident', flushDoneResident_eq, ← answered]
    rfl
  have slots : u.slots =
      s.slots.set i.val
        { s.slot i with writeInFlight := false, cleaner := false, writeReqs := [], wbFault := false } i.isLt := by
    rw [← answered, answerAll_slots, flushEnded_acked]
  have slot : u.slot i = _ := (congrArg (Vector.get · i) slots).trans (get_set_eq _ i _)
  have next : (u.slot i).nextReqs = (s.slot i).nextReqs := by rw [slot]
  have dirty : (u.slot i).dirty = (s.slot i).dirty := by rw [slot]
  have fault : (u.slot i).wbFault = false := by rw [slot]
  have cleared : u.slots.set i.val { u.slot i with nextReqs := [] } i.isLt =
      s.slots.set i.val
        { s.slot i with
          writeInFlight := false, cleaner := false, writeReqs := [], wbFault := false, nextReqs := [] }
        i.isLt := by
    rw [slot, slots, set_set_eq]
  rw [← next, ← dirty, ← cleared, runs]
  exact ⟨fun none => by rw [settleNext_none none], fun some clean => by rw [settleNext_answered some clean fault],
    fun some dirty => by rw [settleNext_again some dirty]⟩

/-- R67, R39: what a failed write leaves at a RESIDENT slot, before its requesters are answered. -/
theorem flushEnded_faulted (j : Nat) (i : SlotNo) (o : Op) (s : State) {out : OpOutcome} (fault : out ≠ .ok) :
    let t := flushEnded i false (endOp j o out s)
    t.slots =
        s.slots.set i.val
          { s.slot i with
            writeInFlight := false, cleaner := false, writeReqs := [], dirty := true, wbFault := true } i.isLt ∧
      t.counts = writeCounted (s.slot i) s ∧
      t.port = portFaulted j o.request out (if out = .timeout then [o.beat] else []) s ∧
      t.attn = raised .memFault s ∧ tookOrNot o.beat s t ∧ t.recency = s.recency ∧ t.pool = s.pool ∧
      t.taps = s.taps ∧ keepsUnits s t := by
  have took := cutOffBeat_hostMem o.beat s
  rw [flushEnded, endOp_slot j o s fault, Bool.not_false, Bool.or_true, endOp_fault j o s fault]
  exact ⟨rfl, rfl, rfl, rfl, took, rfl, rfl, rfl, rfl, rfl, rfl, rfl⟩

/-- R39: the end of a RESIDENT slot's failed write. -/
theorem residentWriteFault {s : State} {j : Nat} {i : SlotNo} {o : Op} {e : BusEnd} {out : OpOutcome}
    (held : s.op j = some o) (request : ∃ k a image, o.request = .writeBack i k a image)
    (writing : (s.slot i).writeInFlight = true) (resident : (s.slot i).state = .resident)
    (ends : o.endBy s e = some (o, out)) (fault : out ≠ .ok) :
    let u : State := answerAll false (s.slot i).record.generation (s.slot i).writeReqs
      (flushEnded i false (endOp j o out s))
    ((s.slot i).nextReqs = [] → exec (.flushWriteComplete j e) s = .next (settle u)) ∧
    ((s.slot i).nextReqs ≠ [] →
      exec (.flushWriteComplete j e) s = .next (settle (flushWrite i (s.slot i).nextReqs u))) := by
  intro u
  have same := endOp_slot j o s fault i
  have resident' : ((endOp j o out s).slot i).state = .resident := by rw [same]; exact resident
  have runs : exec (.flushWriteComplete j e) s = .next (settle (settleNext i (s.slot i).record.generation u)) := by
    rw [exec_flushFault held request writing ends fault, flushDone_resident false resident', flushDoneResident_eq, same]
  have slot : u.slot i = _ := answered_flushEnded_slot i false _ _ (endOp j o out s)
  have next : (u.slot i).nextReqs = (s.slot i).nextReqs := by rw [slot, same]
  have dirty : (u.slot i).dirty = true := by rw [slot]; exact Bool.or_true _
  rw [← next, runs]
  exact ⟨fun none => by rw [settleNext_none none], fun some => by rw [settleNext_again some dirty]⟩

/-- Settles O34: the end of a flush-type write, at a RESIDENT slot and at one owed an eviction. -/
theorem flushTypeWriteEnds : Obligations.FlushTypeWriteEnds := by
  refine ⟨answers_eq, fun s j i o awaits writing resident => ?_,
    fun s j i o e out held request writing resident ends fault => ?_, fun s i qs => ?_,
    fun s j i o awaits writing evicting unasked => ?_,
    fun s j i o e out held request writing evicting unasked ends fault => ?_⟩
  · exact residentWriteAcked awaits writing resident (congrArg _ (flushEnded_acked j i o s))
  · obtain ⟨slots, counts, port, attn, took, recency, pool, taps, units⟩ := flushEnded_faulted j i o s fault
    exact ⟨_, slots, counts, port, attn, took, recency, pool, taps, units,
      residentWriteFault held request writing resident ends fault⟩
  · rw [flushWrite_eq]
    exact ⟨rfl, rfl, rfl, rfl, rfl, rfl⟩
  · have runs := exec_flushAcked awaits writing
    have evicting : ((writeAcked j o s).slot i).state = .evicting := evicting
    have unasked : ((writeAcked j o s).slot i).writeReqs = [] := unasked
    rw [flushDone_owed true evicting] at runs
    refine ⟨fun clean unrescued nobody => ?_, fun clean rescued => ?_, fun dirty => ?_⟩
    · rw [flushDoneOwed_evicted unasked clean unrescued nobody, cleanlyEvicted_clearFlush] at runs
      exact ⟨_, runs, get_set_eq _ i _, rfl, rfl, rfl, fun k apart => get_set_ne _ _ apart, rfl, rfl, rfl, rfl⟩
    · rw [flushDoneOwed_rescued unasked clean rescued, clearFlush_eq, returnToResident_eq] at runs
      simp only [State.slot, get_set_eq, set_set_eq, Bool.not_true, Bool.or_false] at runs
      exact ⟨_, runs, get_set_eq _ i _, rfl, rfl, rfl, rfl, fun k apart => get_set_ne _ _ apart, rfl, rfl, rfl, rfl⟩
    · rw [flushDoneOwed_again unasked (.inr dirty), evictionWrite_clearFlush] at runs
      exact ⟨_, runs, ⟨get_set_eq _ i _, rfl, rfl, rfl, fun k apart => get_set_ne _ _ apart, rfl, rfl, rfl, rfl⟩, rfl⟩
  · have runs := exec_flushFault held request writing ends fault
    have same := endOp_slot j o s fault i
    have took := cutOffBeat_hostMem o.beat s
    have evicting : ((endOp j o out s).slot i).state = .evicting := by rw [same]; exact evicting
    have unasked : ((endOp j o out s).slot i).writeReqs = [] := by rw [same]; exact unasked
    rw [flushDone_owed false evicting, flushDoneOwed_again unasked (.inl rfl), evictionWrite_clearFlush,
      endOp_fault j o s fault] at runs
    generalize (cutOffBeat o.beat s).hostMem = m at runs took
    generalize (cutOffBeat o.beat s).freeIndex = n at runs
    exact ⟨_, runs, ⟨get_set_eq _ i _, rfl, rfl, rfl, fun k apart => get_set_ne _ _ apart, rfl, rfl, rfl, rfl⟩, rfl,
      took⟩

end Sys2Proof.Machine
end

section
/-! The ends of a fetch that gives no record (R14, R32, R54), with the settling of O32. -/

namespace Sys2Proof.Machine

/-! ## The ends of a fetch at the port -/

/-- R66: the operation at place `j` has left the in-flight set. -/
def opEnded (j : Nat) (s : State) : State :=
  { s with port := { s.port with inFlight := s.port.inFlight.eraseIdx j } }

theorem deliverEnd_fetch {o : Op} {i : SlotNo} {k : Key} {a : Word} (ok : Bool) (s : State)
    (request : o.request = .fetch i k a) :
    deliverEnd o ok s = if ok = true then fetchDone i o.words s else fetchFailed i s := by
  simp only [deliverEnd, request]

/-- R31: FETCH_COMPLETE with the last word. -/
theorem exec_fetchLast {s : State} {j : Nat} {i : SlotNo} {o : Op} (held : fetchAt j i o s) (last : o.words.length = 45)
    (w : Word) :
    exec (.fetchComplete j w (oddParity w)) s = .next (settle (fetchDone i (o.words ++ [w]) (opEnded j s))) := by
  obtain ⟨held, k, a, request⟩ := held
  have ends : o.endBy s (.response (.data w (oddParity w))) = some ({ o with words := o.words ++ [w] }, .ok) := by
    simp [Op.endBy, Op.respond, Op.finished, request, last, Request.writes]
  have passes : (fun (q : Request) ok => q.kind == .fetch && ok) o.request (OpOutcome.ok == .ok) = true := by
    simp [request, Request.kind]
  refine congrArg Host.Outcome.next ((endEvent_of_endBy held ends passes).trans ?_)
  rw [deliverEnd_fetch (o := { o with words := o.words ++ [w] }) _ _ request]
  rfl

/-- R67: the state after a failed read, before its requester acts. -/
def readFaulted (j : Nat) (o : Op) (out : OpOutcome) (s : State) : State :=
  { s with
    port := portFaulted j o.request out (if out = .timeout then [o.beat] else []) s, attn := raised .memFault s }

/-- R67: a read that ends with a fault leaves no trace in memory. -/
theorem endOp_readFault (j : Nat) {o : Op} {out : OpOutcome} (s : State) (fault : out ≠ .ok)
    (read : o.beat.write = false) :
    endOp j o out s = readFaulted j o out s := by
  rw [endOp_fault j o s fault, cutOffBeat_of_read s read]
  rfl

/-- R32: FETCH_FAIL. -/
theorem exec_fetchFault {s : State} {j : Nat} {i : SlotNo} {o : Op} {e : BusEnd} {out : OpOutcome}
    (held : fetchAt j i o s) (ends : o.endBy s e = some (o, out)) (fault : out ≠ .ok) :
    exec (.fetchFail j e) s = .next (settle (fetchFailed i (readFaulted j o out s))) := by
  obtain ⟨held, k, a, request⟩ := held
  have read : o.beat.write = false := by
    simp [Op.beat, request]
  have passes : (fun (q : Request) ok => q.kind == .fetch && !ok) o.request false = true := by
    simp [request, Request.kind]
  refine congrArg Host.Outcome.next ((endEvent_fault held ends fault passes).trans ?_)
  rw [deliverEnd_fetch _ _ request, endOp_readFault j s fault read, if_neg (by decide)]

/-! ## Evictions for want of cells (R54) -/

/-- R54: what the evictions for want of cells can write. -/
theorem evictForCells_eq (need : Nat) (l : List SlotNo) (s : State) :
    evictForCells need l s =
      { s with
        slots := (evictForCells need l s).slots, recency := (evictForCells need l s).recency,
        counts := (evictForCells need l s).counts,
        port := { s.port with list := (evictForCells need l s).port.list } } := by
  induction l generalizing need s with
  | nil => rfl
  | cons i l ih =>
    rw [evictForCells]
    split
    · rw [dirtyEvict_eq]
      refine (ih _ (dirtilyEvicted i s)).trans ?_
      generalize evictForCells _ l (dirtilyEvicted i s) = r
      rfl
    · exact ih need s

theorem evictForCells_writes (need : Nat) (l : List SlotNo) (s : State) :
    ∃ slots recency counts list,
      evictForCells need l s =
        { s with slots := slots, recency := recency, counts := counts, port := { s.port with list := list } } :=
  ⟨_, _, _, _, evictForCells_eq need l s⟩

/-- R54: the evictions do not depend on what is in flight. -/
theorem evictForCells_opEnded (need : Nat) (l : List SlotNo) (j : Nat) (s : State) :
    evictForCells need l (opEnded j s) = opEnded j (evictForCells need l s) := by
  induction l generalizing need s with
  | nil => rfl
  | cons i l ih =>
    rw [evictForCells, evictForCells]
    by_cases gives : (0 < need && (s.slot i).dirtyEligible && !(s.slot i).cells.isEmpty) = true
    · refine (if_pos gives).trans ?_
      rw [if_pos gives, ← ih]
      rfl
    · refine (if_neg gives).trans ?_
      rw [if_neg gives, ← ih]

/-! ## The answers of a given-up fetch (R14, R32, R54) -/

/-- R84, R97: a waiting tap answered at an IN_FLIGHT line. -/
theorem answerTap_inFlight {c : CtxNo} {x : TapContext} {s : State} (o : VOutcome) (why : Reason)
    (held : s.ctx c = some x) (inFlight : (s.line x.line).state = .inFlight) :
    answerTap c o why s =
      { s with
        taps := s.taps.set c.val none c.isLt,
        lines :=
          s.lines.set x.line.val
            { s.line x.line with
              state := .ready, ctx := none, timer := none, verdict := some (plainVerdict x.sequence o why s) }
            x.line.isLt } := by
  simp only [answerTap, held]
  rw [deliver_inFlight x.line _ (s.setCtx c none) inFlight]
  rfl

theorem answerWaiter_slotWait (o : VOutcome) (why : Reason) (c : Status) (w : Waiter) (s : State) :
    (answerWaiter o why c w s).slotWait = s.slotWait := by
  cases w with
  | change => rfl
  | tap d =>
    show (answerTap d o why s).slotWait = s.slotWait
    rw [answerTap]
    cases s.ctx d <;> rfl

theorem answerWaiters_slotWait (o : VOutcome) (why : Reason) (c : Status) (ws : List Waiter) (s : State) :
    (answerWaiters o why c ws s).slotWait = s.slotWait := by
  induction ws generalizing s with
  | nil => rfl
  | cons w ws ih =>
    have step : answerWaiters o why c (w :: ws) s = answerWaiters o why c ws (answerWaiter o why c w s) := rfl
    rw [step, ih, answerWaiter_slotWait]

/-- R14: a DAMAGED fetch with no request waiting for a slot. -/
theorem fetchDamaged_eq {i : SlotNo} {s : State} (nobody : s.slotWait = []) :
    fetchDamaged i s =
      raise .damaged (answerWaiters .fault .damaged .damaged (s.slot i).waiting (s.setSlot i Slot.unused)) := by
  rw [fetchDamaged, handOver_nil i (s.setSlot i Slot.unused) nobody]

/-- R32: a failed fetch with no request waiting for a slot. -/
theorem fetchFailed_eq {i : SlotNo} {s : State} (nobody : s.slotWait = []) :
    fetchFailed i s = answerWaiters .fault .memFault .memFault (s.slot i).waiting (s.setSlot i Slot.unused) :=
  handOver_nil i _ ((answerWaiters_slotWait _ _ _ _ _).trans nobody)

/-- R54: a fetch short of cells with no request waiting for a slot. -/
theorem fetchShort_eq {i : SlotNo} {n : Nat} {s : State} (nobody : s.slotWait = []) :
    fetchShort i n s =
      raise .cellShort
        (answerWaiters .retry .cellShort .cellShort (s.slot i).waiting
          ((evictForCells (n - s.pool.free.length) s.recency.reverse s).setSlot i Slot.unused)) := by
  refine handOver_nil i _ ?_
  rw [raise_eq_raised]
  refine (answerWaiters_slotWait _ _ _ _ _).trans ?_
  rw [evictForCells_eq]
  exact nobody

theorem fetchDone_damaged {i : SlotNo} {words : List Word} (s : State) (h : decodeImage (wordsBytes words) = .damaged) :
    fetchDone i words s = fetchDamaged i s := by
  simp only [fetchDone, h]

theorem fetchDone_valid {i : SlotNo} {words : List Word} {r : Record} {ps : List ProductEntry} (s : State)
    (h : decodeImage (wordsBytes words) = .valid r ps) : fetchDone i words s = fetchValid i r ps s := by
  simp only [fetchDone, h]

/-- R53, R54: a fetch short of cells that no clean slot can give. -/
theorem fetchValid_short {i : SlotNo} {r : Record} {ps : List ProductEntry} {s : State}
    (short : s.pool.free.length < ps.length) (nobody : cellVictim i s = none) :
    fetchValid i r ps s = fetchShort i ps.length s := by
  have course : ¬ ps.length ≤ s.pool.free.length := Nat.not_le.mpr short
  simp only [fetchValid, freeCleanFor_none ps.length nobody, if_neg course]

/-- R54: the course of a fetch that no cells can be found for. -/
theorem exec_fetchShort {s : State} {j : Nat} {i : SlotNo} {o : Op} {w : Word} {r : Record} {ps : List ProductEntry}
    (held : fetchAt j i o s) (last : o.words.length = 45) (nobody : s.slotWait = [])
    (valid : decodeImage (wordsBytes (o.words ++ [w])) = .valid r ps) (short : s.pool.free.length < ps.length)
    (none : cellVictim i s = none) :
    exec (.fetchComplete j w (oddParity w)) s =
      .next
        (settle
          (raise .cellShort
            (answerWaiters .retry .cellShort .cellShort (s.slot i).waiting
              ((opEnded j (evictForCells (ps.length - s.pool.free.length) s.recency.reverse s)).setSlot i
                Slot.unused)))) := by
  have none' : cellVictim i (opEnded j s) = .none := none
  have nobody' : (opEnded j s).slotWait = [] := nobody
  have short' : (opEnded j s).pool.free.length < ps.length := short
  rw [exec_fetchLast held last, fetchDone_valid _ valid, fetchValid_short short' none', fetchShort_eq nobody',
    evictForCells_opEnded]
  rfl

/-- R149: the waiting change command of a given-up fetch is completed unapplied. -/
theorem answerWaiters_change (o : VOutcome) (why : Reason) (c : Status) (s : State) :
    answerWaiters o why c [.change] s =
      { s with
        change := { s.change with state := .storing },
        port :=
          { s.port with
            list := s.port.list ++ [.statusWrite s.change.blockAddr (s.change.key.zeroExtend 32) (statusHalf c)] } } :=
  rfl

theorem answerWaiters_tap (o : VOutcome) (why : Reason) (c : Status) (d : CtxNo) (s : State) :
    answerWaiters o why c [.tap d] s = answerTap d o why s := rfl

/-- Settles O32: a given-up fetch with a waiting change command, with a waiting tap, and the evictions for want of
cells. -/
theorem fetchThatGivesNoRecord : Obligations.FetchThatGivesNoRecord := by
  refine ⟨fun s j i o held nobody waiting => ?_, fun s j i o c x held nobody waiting ctx inFlight => ?_,
    fun s need l => evictForCells_none need l s,
    fun s need k tail rest missing idle yields => evictForCells_next need k tail rest s missing idle yields⟩
  · intro given ended
    refine ⟨fun w last damaged => ?_, fun w r ps last valid short none => ?_, fun e out ends fault => ?_⟩
    · have nobody' : (opEnded j s).slotWait = [] := nobody
      have waiting' : ((opEnded j s).slot i).waiting = [.change] := waiting
      have runs := exec_fetchLast held last w
      rw [fetchDone_damaged _ damaged, fetchDamaged_eq nobody', waiting', answerWaiters_change, raise_eq_raised] at runs
      exact ⟨_, runs, ⟨get_set_eq _ i _, fun k apart => get_set_ne _ _ apart, rfl, rfl, rfl, rfl, rfl, nobody, rfl, rfl,
        rfl, rfl, keepsHost_refl s⟩, rfl⟩
    · have runs := exec_fetchShort held last nobody valid short none
      rw [waiting, answerWaiters_change, raise_eq_raised] at runs
      obtain ⟨slots, recency, counts, list, course⟩ :=
        evictForCells_writes (ps.length - s.pool.free.length) s.recency.reverse s
      rw [course] at runs ⊢
      exact ⟨_, runs, ⟨get_set_eq _ i _, fun k apart => get_set_ne _ _ apart, rfl, rfl, rfl, rfl, rfl, nobody, rfl, rfl,
        rfl, rfl, keepsHost_refl s⟩, rfl⟩
    · have nobody' : (readFaulted j o out s).slotWait = [] := nobody
      have waiting' : ((readFaulted j o out s).slot i).waiting = [.change] := waiting
      have runs := exec_fetchFault held ends fault
      rw [fetchFailed_eq nobody', waiting', answerWaiters_change] at runs
      exact ⟨_, runs, ⟨get_set_eq _ i _, fun k apart => get_set_ne _ _ apart, rfl, rfl, rfl, rfl, rfl, nobody, rfl, rfl,
        rfl, rfl, keepsHost_refl s⟩, rfl⟩
  · intro given
    have freed (d : CtxNo) (apart : d ≠ c) : (s.taps.set c.val none c.isLt).get d = s.ctx d := get_set_ne _ _ apart
    refine ⟨fun w last damaged => ?_, fun w r ps last valid short none => ?_, fun e out ends fault => ?_⟩
    · have nobody' : (opEnded j s).slotWait = [] := nobody
      have waiting' : ((opEnded j s).slot i).waiting = [.tap c] := waiting
      have ctx' : ((opEnded j s).setSlot i Slot.unused).ctx c = some x := ctx
      have inFlight' : (((opEnded j s).setSlot i Slot.unused).line x.line).state = .inFlight := inFlight
      have runs := exec_fetchLast held last w
      rw [fetchDone_damaged _ damaged, fetchDamaged_eq nobody', waiting', answerWaiters_tap,
        answerTap_inFlight _ _ ctx' inFlight', raise_eq_raised] at runs
      exact ⟨_, runs, ⟨get_set_eq _ i _, fun k apart => get_set_ne _ _ apart, get_set_eq _ c _, freed, rfl, rfl, nobody,
        rfl, rfl, rfl, rfl, rfl, keepsHost_refl s⟩, rfl, rfl⟩
    · have runs := exec_fetchShort held last nobody valid short none
      obtain ⟨slots, recency, counts, list, course⟩ :=
        evictForCells_writes (ps.length - s.pool.free.length) s.recency.reverse s
      have ctx' : ((opEnded j (evictForCells (ps.length - s.pool.free.length) s.recency.reverse s)).setSlot i
          Slot.unused).ctx c = some x := by
        rw [course]
        exact ctx
      have inFlight' : (((opEnded j (evictForCells (ps.length - s.pool.free.length) s.recency.reverse s)).setSlot i
          Slot.unused).line x.line).state = .inFlight := by
        rw [course]
        exact inFlight
      rw [waiting, answerWaiters_tap, answerTap_inFlight _ _ ctx' inFlight', raise_eq_raised, course] at runs
      rw [course]
      exact ⟨_, runs, ⟨get_set_eq _ i _, fun k apart => get_set_ne _ _ apart, get_set_eq _ c _, freed, rfl, rfl, nobody,
        rfl, rfl, rfl, rfl, rfl, keepsHost_refl s⟩, rfl, rfl⟩
    · have nobody' : (readFaulted j o out s).slotWait = [] := nobody
      have waiting' : ((readFaulted j o out s).slot i).waiting = [.tap c] := waiting
      have ctx' : ((readFaulted j o out s).setSlot i Slot.unused).ctx c = some x := ctx
      have inFlight' : (((readFaulted j o out s).setSlot i Slot.unused).line x.line).state = .inFlight := inFlight
      have runs := exec_fetchFault held ends fault
      rw [fetchFailed_eq nobody', waiting', answerWaiters_tap, answerTap_inFlight _ _ ctx' inFlight'] at runs
      exact ⟨_, runs, ⟨get_set_eq _ i _, fun k apart => get_set_ne _ _ apart, get_set_eq _ c _, freed, rfl, rfl, nobody,
        rfl, rfl, rfl, rfl, rfl, keepsHost_refl s⟩, rfl, rfl⟩

end Sys2Proof.Machine
end

section
/-! A fetch that gives a record, and the serving of its waiting list (R31, R27, R120, R149), with the settling of O31. -/

namespace Sys2Proof.Machine

/-! ## The record enters its slot (R31) -/

/-- R31: the fetch at place `j` is over; slot `i` stands RESIDENT at the recency head with record `r`, its dirty flag `d`,
and one cell for each product; the block marks are `m`. -/
def entered (j : Nat) (i : SlotNo) (ps : List ProductEntry) (r : Record) (d : Bool) (m : Vector (Option Ident) 16)
    (s : State) : State :=
  { s with
    slots :=
      s.slots.set i.val
        { Slot.unused with
          state := .resident, key := (s.slot i).key, cells := s.pool.free.take ps.length, dirty := d, record := r }
        i.isLt,
    recency := i :: s.recency.filter (· != i),
    pool :=
      ({ s.pool with free := s.pool.free.drop ps.length } : CellPool).writeAll (s.pool.free.take ps.length) ps,
    marks := m, port := { s.port with inFlight := s.port.inFlight.eraseIdx j } }

section entered
variable (j : Nat) (i : SlotNo) (ps : List ProductEntry) (r : Record) (d : Bool) (m : Vector (Option Ident) 16)
  (s : State)

theorem enterRecord_opEnded : enterRecord i r ps (opEnded j s) = entered j i ps r false s.marks s := by
  rw [enterRecord, takeCells_eq]
  simp only [State.setSlot, State.setSlots, State.slot, get_set_eq, set_set_eq]
  rfl

theorem entered_slot : (entered j i ps r d m s).slot i =
    { Slot.unused with
      state := .resident, key := (s.slot i).key, cells := s.pool.free.take ps.length, dirty := d, record := r } :=
  get_set_eq _ i _

theorem amendRecord_entered (f : Record → Record) :
    amendRecord i f (entered j i ps r d m s) = entered j i ps (f r) true m s := by
  rw [amendRecord_eq, entered_slot]
  simp only [entered, set_set_eq]

theorem removeMark_entered (x : Ident) :
    removeMark x (entered j i ps r d m s) =
      entered j i ps r d (m.map fun y => if y = some x then none else y) s := rfl

/-- R31, step 4: a block mark blocks the record and is removed. -/
theorem applyMark_entered {marked : Prop} [Decidable marked]
    (holds : marked ↔ r.state ≠ .empty ∧ ∃ k, s.marks.get k = some r.ident) :
    applyMark i (entered j i ps r false s.marks s) =
      entered j i ps (if marked then { r with state := .blocked } else r) (decide marked)
        (if marked then s.marks.map fun y => if y = some r.ident then none else y else s.marks) s := by
  have found : markedIdent r.ident (entered j i ps r false s.marks s) = true ↔ ∃ k, s.marks.get k = some r.ident :=
    markedIdent_iff _ _
  rw [applyMark, entered_slot]
  by_cases h : marked
  · obtain ⟨used, mark⟩ := holds.mp h
    have test : (r.state != .empty && markedIdent r.ident (entered j i ps r false s.marks s)) = true := by
      simp [used, found.mpr mark]
    rw [if_pos h, if_pos h, decide_eq_true h]
    refine (if_pos test).trans ?_
    rw [amendRecord_entered, removeMark_entered]
  · have test : ¬ (r.state != .empty && markedIdent r.ident (entered j i ps r false s.marks s)) = true := by
      rw [Bool.and_eq_true, bne_iff_ne, found]
      exact fun both => h (holds.mpr both)
    rw [if_neg h, if_neg h, decide_eq_false h]
    exact if_neg test

/-- R31, step 5: pending deadline passes are folded in. -/
theorem foldPasses_entered (passes : Byte) :
    foldPasses i passes (entered j i ps r d m s) =
      entered j i ps (if passes = 0 then r else { r with deadlinePasses := satAdd8 r.deadlinePasses passes })
        (d || decide (passes ≠ 0)) m s := by
  rw [foldPasses]
  by_cases none : passes = 0
  · rw [if_pos none, if_pos none, decide_eq_false (not_not.mpr none), Bool.or_false]
  · rw [if_neg none, if_neg none, decide_eq_true none, Bool.or_true, amendRecord_entered]

end entered

theorem fetchValid_enough {i : SlotNo} {r : Record} {ps : List ProductEntry} {s : State}
    (enough : ps.length ≤ s.pool.free.length) :
    fetchValid i r ps s =
      serve i (s.slot i).waiting (foldPasses i (s.slot i).passes (applyMark i (enterRecord i r ps s))) := by
  simp only [fetchValid, freeCleanFor_enough _ _ _ enough, if_pos enough]

theorem fetchAt_of_awaitsLast {j : Nat} {i : SlotNo} {o : Op} {s : State} (h : fetchAwaitsLast j i o s) :
    fetchAt j i o s ∧ o.words.length = 45 := by
  obtain ⟨held, _, last, request⟩ := h
  exact ⟨⟨held, request⟩, last⟩

/-! ## A fetch short of cells (R53) -/

theorem handOver_opEnded (v : SlotNo) (j : Nat) (s : State) : handOver v (opEnded j s) = opEnded j (handOver v s) := by
  cases waits : s.slotWait with
  | nil =>
    have waits' : (opEnded j s).slotWait = [] := waits
    rw [handOver_nil v _ waits', handOver_nil v _ waits]
  | cons w ws =>
    have waits' : (opEnded j s).slotWait = w :: ws := waits
    have taps := awaitAll_taps_congr (s.slotWait.filter fun v => waiterKey s v == waiterKey s w) (s := s)
      (t := opEnded j s) rfl
    rw [handOver_cons waits', handOver_cons waits]
    simp only [opEnded] at taps ⊢
    rw [← taps]
    rfl

/-- R53: a fetch short of cells goes on from the state in which the first clean slot has been freed. -/
theorem fetchValid_next {i v : SlotNo} {j : Nat} {r : Record} {ps : List ProductEntry} {s : State}
    (short : s.pool.free.length < ps.length) (gives : cellVictim i s = some v) :
    fetchValid i r ps (opEnded j s) = fetchValid i r ps (opEnded j (handOver v (cleanlyEvicted v s))) := by
  have apart : i ≠ v := cellVictim_ne gives
  have slot : (handOver v (cleanlyEvicted v s)).slot i = s.slot i := by
    rw [handOver_slot_ne _ _ _ apart, ← cleanEvict_eq, cleanEvict_slot_ne _ _ _ apart]
  have slot' : (opEnded j (handOver v (cleanlyEvicted v s))).slot i = (opEnded j s).slot i := slot
  have course : freeCleanFor i ps.length (opEnded j s) =
      freeCleanFor i ps.length (opEnded j (handOver v (cleanlyEvicted v s))) := by
    rw [← handOver_opEnded]
    exact freeCleanFor_next (s := opEnded j s) short gives
  simp only [fetchValid, slot', course]

/-! ## Serving (R27) -/

theorem serve_cons (i : SlotNo) (w : Waiter) (ws : List Waiter) (s : State) :
    serve i (w :: ws) s =
      if ((takeEntry i w s).slot i).state = .resident then serve i ws (takeEntry i w s)
      else keepBehindRetire i ws (takeEntry i w s) := by
  simp only [serve, beq_iff_eq]

theorem serve_singleton (i : SlotNo) (w : Waiter) (s : State) : serve i [w] s = takeEntry i w s := by
  rw [serve_cons]
  split <;> rfl

/-- R27: the entries behind a RETIRE stay on the slot and rescue it. -/
theorem keepBehindRetire_eq {i : SlotNo} {ws : List Waiter} (s : State) (some : ws ≠ []) :
    keepBehindRetire i ws s =
      { s with
        slots := s.slots.set i.val { s.slot i with waiting := ws, rescued := true } i.isLt,
        counts := { s.counts with rescues := s.counts.rescues + 1 } } := by
  cases ws with
  | nil => exact absurd rfl some
  | cons w ws => rfl

theorem serve_tap {i : SlotNo} {c : CtxNo} {x : TapContext} {s : State} (ctx : s.ctx c = some x) :
    serve i [.tap c] s = resolveAt i x (s.setCtx c none) := by
  rw [serve_singleton]
  simp only [takeEntry, resolveWaiting, ctx]

/-- R149: a waiting command is taken as its block's command. -/
theorem serve_change {i : SlotNo} {c : ChangeCommand} {s : State}
    (command : commandOf s.change.block.command = some c) : serve i [.change] s = applyCommand c i s := by
  rw [serve_singleton]
  simp only [takeEntry, applyWaiting, command]

/-- R84: a verdict delivered to an IN_FLIGHT line. -/
theorem deliver_of_lines {n : LineNo} (v : Verdict) {s t : State} (lines : t.lines = s.lines)
    (inFlight : (s.line n).state = .inFlight) :
    deliver n v t =
      { t with
        lines :=
          s.lines.set n.val
            { s.line n with state := .ready, ctx := none, verdict := some v, timer := none } n.isLt } := by
  have line : t.line n = s.line n := congrArg (Vector.get · n) lines
  rw [deliver_inFlight n v t (line ▸ inFlight), line, lines]
  rfl

/-- R120, R118: a waiting tap that is accepted. -/
theorem serve_tap_accepted {i : SlotNo} {c : CtxNo} {x : TapContext} {s : State} {a : Accepted}
    (ctx : s.ctx c = some x) (inFlight : (s.line x.line).state = .inFlight)
    (accepts : resolve (viewAt i x s) x.ident (s.slot i).record = .ok a) :
    ∃ pool,
      (∀ k p, a.paid = some (k, p) → ∀ cell,
        pool.entry cell = if (s.slot i).cells[k]? = some cell then p else s.pool.entry cell) ∧
      serve i [.tap c] s =
        { s with
          taps := s.taps.set c.val none c.isLt, pool := pool,
          slots := s.slots.set i.val { s.slot i with record := a.record, dirty := true } i.isLt,
          recency := i :: s.recency.filter (· != i),
          lines :=
            s.lines.set x.line.val
              { s.line x.line with
                state := .ready, ctx := none, verdict := some (acceptVerdict x a s), timer := none }
              x.line.isLt } := by
  have accepts' : resolve (viewAt i x (s.setCtx c none)) x.ident ((s.setCtx c none).slot i).record = .ok a := accepts
  refine ⟨(writePaid i a.paid s).pool, fun k p paid cell => ?_, ?_⟩
  · rw [paid, writePaid_entry]
  · have cells : ((((s.setCtx c none).modSlot i fun y => { y with record := a.record, dirty := true })).slot i).cells =
        (s.slot i).cells := by
      rw [State.slot_modSlot, if_pos rfl]
      rfl
    rw [serve_tap ctx, resolveAt_ok accepts', writePaid_eq, writePaid_pool_congr (s := s) a.paid cells rfl,
      deliver_of_lines (s := s) (inFlight := inFlight)]
    · rfl
    · rfl

/-- R120, R119: a waiting tap that is refused. -/
theorem serve_tap_refused {i : SlotNo} {c : CtxNo} {x : TapContext} {s : State} {why : Reason}
    (ctx : s.ctx c = some x) (inFlight : (s.line x.line).state = .inFlight)
    (refuses : resolve (viewAt i x s) x.ident (s.slot i).record = .error why) :
    serve i [.tap c] s =
      { s with
        taps := s.taps.set c.val none c.isLt,
        slots :=
          s.slots.set i.val
            { s.slot i with
              record := refusedRecord why (x.mark == .watch) (s.slot i).record,
              dirty := (s.slot i).dirty || refusalWrites why (x.mark == .watch) }
            i.isLt,
        recency := i :: s.recency.filter (· != i),
        lines :=
          s.lines.set x.line.val
            { s.line x.line with
              state := .ready, ctx := none, verdict := some (refuseVerdict x why (s.slot i).record s), timer := none }
            x.line.isLt } := by
  have refuses' : resolve (viewAt i x (s.setCtx c none)) x.ident ((s.setCtx c none).slot i).record = .error why :=
    refuses
  rw [serve_tap ctx, resolveAt_error refuses', deliver_of_lines (s := s) (inFlight := inFlight)]
  · rfl
  · rfl

/-! ## The obligation -/

/-- R31, R50: FETCH_COMPLETE with cells enough. -/
theorem exec_fetchEnters {s : State} {j : Nat} {i : SlotNo} {o : Op} {w : Word} {r : Record} {ps : List ProductEntry}
    {marked : Prop} [Decidable marked] (holds : marked ↔ r.state ≠ .empty ∧ ∃ k, s.marks.get k = some r.ident)
    (awaits : fetchAwaitsLast j i o s) (valid : decodeImage (wordsBytes (o.words ++ [w])) = .valid r ps)
    (enough : ps.length ≤ s.pool.free.length) :
    exec (.fetchComplete j w (oddParity w)) s =
      .next
        (settle
          (serve i (s.slot i).waiting
            (foldPasses i (s.slot i).passes
              (entered j i ps (if marked then { r with state := .blocked } else r) (decide marked)
                (if marked then s.marks.map fun y => if y = some r.ident then none else y else s.marks) s)))) := by
  obtain ⟨held, last⟩ := fetchAt_of_awaitsLast awaits
  have enough' : ps.length ≤ (opEnded j s).pool.free.length := enough
  rw [exec_fetchLast held last, fetchDone_valid _ valid, fetchValid_enough enough', enterRecord_opEnded,
    applyMark_entered j i ps r s holds]
  rfl

/-- R50: the products of a slot whose record has just entered. -/
theorem entered_products (j : Nat) (i : SlotNo) {ps : List ProductEntry} (r : Record) (d : Bool)
    (m : Vector (Option Ident) 16) {s : State} (enough : ps.length ≤ s.pool.free.length) (distinct : s.pool.free.Nodup) :
    (entered j i ps r d m s).products i = ps := by
  have taken : (s.pool.free.take ps.length).length = ps.length := by
    rw [List.length_take, Nat.min_eq_left enough]
  exact (products_of_slot (congrArg Slot.cells (entered_slot j i ps r d m s)) rfl).trans
    (CellPool.writeAll_entries _ (distinct.sublist (List.take_sublist _ _)) taken)

/-- R31, R170: the marks with those of one identifier removed under a condition. -/
theorem markRemoved_get {marked : Prop} [Decidable marked] (m : Vector (Option Ident) 16) (x : Ident) (k : Fin 16) :
    (if marked then m.map fun y => if y = some x then none else y else m).get k =
      if marked ∧ m.get k = some x then none else m.get k := by
  by_cases mark : marked
  · rw [if_pos mark, get_map_eq]
    simp only [mark, true_and]
  · rw [if_neg mark, if_neg fun both => mark both.1]

/-- Settles O31: the record's entry, the shortage of cells, and the serving of the waiting list. -/
theorem fetchCompletes : Obligations.FetchCompletes := by
  refine ⟨fun s j w i o r ps awaits valid enough distinct => ?_, fun s j w i v o r ps awaits valid short gives => ?_,
    fun s i c x ctx resident inFlight => ?_, fun s i c command record resident => ⟨fun st refused => ?_, ?_⟩,
    fun s i w ws => ⟨fun resident => ?_, fun other some => ?_⟩⟩
  · intro marked blocked
    have runs := exec_fetchEnters (marked := marked) Iff.rfl awaits valid enough
    have passes : blocked.deadlinePasses = r.deadlinePasses := by
      show (if marked then { r with state := .blocked } else r : Record).deadlinePasses = _
      split <;> rfl
    change exec _ s = .next (settle (serve i _ (foldPasses i _ (entered j i ps blocked _ _ s)))) at runs
    rw [foldPasses_entered, passes] at runs
    refine ⟨_, runs, (entered_slot ..).trans ?_, entered_products j i _ _ _ enough distinct,
      CellPool.writeAll_free _ _ _, rfl, fun k => ?_, rfl, fun k apart => get_set_ne _ _ apart, rfl, rfl, rfl, rfl, rfl,
      rfl, rfl, keepsHost_refl s⟩
    · rw [Bool.decide_or]
    · exact markRemoved_get s.marks r.ident k
  · obtain ⟨held, last⟩ := fetchAt_of_awaitsLast awaits
    have held' : fetchAt j i o (handOver v (cleanlyEvicted v s)) := by
      obtain ⟨op, request⟩ := held
      exact ⟨(congrArg (·[j]?) (handOver_inFlight v (cleanlyEvicted v s))).trans op, request⟩
    rw [exec_fetchLast held last, exec_fetchLast held' last, fetchDone_valid _ valid, fetchDone_valid _ valid,
      fetchValid_next short gives]
  · cases outcome : resolve (viewAt i x s) x.ident (s.slot i).record with
    | ok a =>
      obtain ⟨pool, paid, served⟩ := serve_tap_accepted ctx inFlight outcome
      rw [served]
      refine ⟨acceptVerdict x a s, get_set_eq _ c _, fun c' apart => get_set_ne _ _ apart, rfl, fun b same => ?_,
        fun why error => absurd error nofun, rfl⟩
      obtain rfl := Except.ok.inj same
      exact ⟨rfl, get_set_eq _ i _, paid⟩
    | error why =>
      rw [serve_tap_refused ctx inFlight outcome]
      refine ⟨refuseVerdict x why (s.slot i).record s, get_set_eq _ c _, fun c' apart => get_set_ne _ _ apart, rfl,
        fun b same => absurd same nofun, fun why' same => ?_, rfl⟩
      obtain rfl := Except.error.inj same
      rfl
  · rw [serve_change command]
    simp only [applyCommand, refused]
    rfl
  · intro j w p o u ready found same
    have taken : s = recordTaken j o u := same
    rw [serve_change command, exec_of_blockReady ready, runCommand_record record, requestRecord_resident c found, taken]
  · rw [serve_singleton] at resident ⊢
    rw [serve_cons, if_pos resident]
  · rw [serve_singleton] at other ⊢
    rw [serve_cons, if_neg other, keepBehindRetire_eq _ some]

end Sys2Proof.Machine
end

section
/-! Drain's course at the slots (R45, R191), with the settling of O7. -/

namespace Sys2Proof.Machine

/-! ## One slot (R45) -/

/-- R45: a RESIDENT slot that the course does not leave alone. -/
def Slot.leaves (x : Slot) : Bool := x.state == .resident && !x.wbFault

/-- R45: what the course makes of a slot. -/
def Slot.drainLeft (x : Slot) : Slot :=
  if x.leaves = true then
    if x.writeInFlight = true then
      { x with state := .evicting, waiting := [], rescued := false, nextReqs := x.nextReqs ++ [.drain] }
    else if x.dirty = true then
      { x with
        state := .evicting, waiting := [], rescued := false, dirty := false, wbFault := false, writeReqs := [.drain],
        nextReqs := [], record := { x.record with generation := x.record.generation + 1 } }
    else Slot.unused
  else x

/-- R45: the write-back that the course asks for at a slot. -/
def drainRequests (s : State) (i : SlotNo) : List Request :=
  if (s.slot i).dirtyEligible = true then [writeBackAsked i s] else []

/-- R45: the cells that the course returns at a slot. -/
def drainCells (s : State) (i : SlotNo) : List CellNo :=
  if (s.slot i).cleanEligible = true then (s.slot i).cells else []

theorem Slot.leaves_iff (x : Slot) : x.leaves = true ↔ x.state = .resident ∧ x.wbFault = false := by
  simp [Slot.leaves]

theorem Slot.dirtyEligible_eq (x : Slot) : x.dirtyEligible = (x.leaves && !x.writeInFlight && x.dirty) := by
  simp only [Slot.dirtyEligible, Slot.eligible, Slot.leaves]
  ac_rfl

theorem Slot.cleanEligible_eq (x : Slot) : x.cleanEligible = (x.leaves && !x.writeInFlight && !x.dirty) := by
  simp only [Slot.cleanEligible, Slot.eligible, Slot.leaves]
  ac_rfl

/-- R45: the courses at a slot. -/
theorem drainSlot_eq_ite (i : SlotNo) (s : State) :
    drainSlot i s =
      if (s.slot i).leaves = true then
        if (s.slot i).writeInFlight = true then oweEviction i .drain s
        else if (s.slot i).dirty = true then dirtyEvict i [.drain] s
        else handOver i (cleanEvict i s)
      else s := rfl

/-- R45: the course at one slot, as one state. -/
theorem drainSlot_eq {s : State} (nobody : s.slotWait = []) (i : SlotNo) :
    drainSlot i s =
      { s with
        slots := s.slots.set i.val (s.slot i).drainLeft i.isLt,
        recency := s.recency.filter fun k => k != i || !(s.slot i).leaves,
        pool := { s.pool with free := (drainCells s i).reverse ++ s.pool.free },
        counts :=
          { s.counts with
            cleanEvictions := s.counts.cleanEvictions + BitVec.ofNat 16 ([i].countP fun k => (s.slot k).cleanEligible),
            dirtyEvictions :=
              s.counts.dirtyEvictions + BitVec.ofNat 16 ([i].countP fun k => (s.slot k).dirtyEligible) },
        port := { s.port with list := s.port.list ++ drainRequests s i } } := by
  have dirtyIs := (s.slot i).dirtyEligible_eq
  have cleanIs := (s.slot i).cleanEligible_eq
  have evicted : handOver i (cleanEvict i s) = cleanlyEvicted i s :=
    (handOver_nil i (cleanEvict i s) nobody).trans (cleanEvict_eq i s)
  rw [drainSlot_eq_ite, Slot.drainLeft, drainRequests, drainCells, List.countP_singleton, List.countP_singleton, dirtyIs,
    cleanIs]
  by_cases leaves : (s.slot i).leaves = true
  · by_cases writing : (s.slot i).writeInFlight = true
    · simp [leaves, writing, oweEviction_eq]
    · by_cases dirty : (s.slot i).dirty = true
      · simp [leaves, writing, dirty, dirtyEvict_reqs_eq]
      · simp [leaves, writing, dirty, evicted, cleanlyEvicted]
  · have same : s.slots.set i.val (s.slot i) i.isLt = s.slots := set_get_eq _ i
    simp [leaves, same]

/-! ## Several slots (R45) -/

/-- The recency list without those of some slots that the course does not leave alone. -/
def drainRecency (s : State) (l : List SlotNo) : List SlotNo :=
  s.recency.filter fun k => decide (k ∉ l) || !(s.slot k).leaves

section step
variable {s : State} (nobody : s.slotWait = []) {i j : SlotNo}

include nobody in
theorem drainSlot_slot : (drainSlot i s).slot i = (s.slot i).drainLeft := by
  rw [drainSlot_eq nobody]
  exact get_set_eq _ i _

include nobody in
theorem drainSlot_slot_ne (apart : j ≠ i) : (drainSlot i s).slot j = s.slot j := by
  rw [drainSlot_eq nobody]
  exact get_set_ne _ _ apart

include nobody in
theorem drainRequests_drainSlot (apart : j ≠ i) : drainRequests (drainSlot i s) j = drainRequests s j := by
  have slot := drainSlot_slot_ne nobody apart
  have asked : writeBackAsked j (drainSlot i s) = writeBackAsked j s := by
    rw [writeBackAsked, State.products, slot, drainSlot_eq nobody]
    rfl
  rw [drainRequests, drainRequests, slot, asked]

include nobody in
theorem drainCells_drainSlot (apart : j ≠ i) : drainCells (drainSlot i s) j = drainCells s j := by
  rw [drainCells, drainCells, drainSlot_slot_ne nobody apart]

include nobody in
theorem drainRecency_drainSlot {l : List SlotNo} (fresh : i ∉ l) :
    drainRecency (drainSlot i s) l = drainRecency s (i :: l) := by
  have recency : (drainSlot i s).recency = s.recency.filter fun k => k != i || !(s.slot i).leaves := by
    rw [drainSlot_eq nobody]
  rw [drainRecency, recency, List.filter_filter, drainRecency]
  refine List.filter_congr fun k _ => ?_
  by_cases same : k = i
  · subst same
    simp [fresh]
  · simp [drainSlot_slot_ne nobody same, same]

end step

/-- R45: the course at several slots, one after another. -/
theorem foldl_drainSlot (l : List SlotNo) (distinct : l.Nodup) (s : State) (nobody : s.slotWait = []) :
    l.foldl (fun s i => drainSlot i s) s =
      { s with
        slots := (l.foldl (fun s i => drainSlot i s) s).slots, recency := drainRecency s l,
        pool := { s.pool with free := (l.flatMap (drainCells s)).reverse ++ s.pool.free },
        counts :=
          { s.counts with
            cleanEvictions := s.counts.cleanEvictions + BitVec.ofNat 16 (l.countP fun k => (s.slot k).cleanEligible),
            dirtyEvictions :=
              s.counts.dirtyEvictions + BitVec.ofNat 16 (l.countP fun k => (s.slot k).dirtyEligible) },
        port := { s.port with list := s.port.list ++ l.flatMap (drainRequests s) } } ∧
    ∀ j, (l.foldl (fun s i => drainSlot i s) s).slot j = if j ∈ l then (s.slot j).drainLeft else s.slot j := by
  induction l generalizing s with
  | nil => exact ⟨by simp [drainRecency], fun j => by simp⟩
  | cons i l ih =>
    obtain ⟨fresh, distinct⟩ := List.nodup_cons.mp distinct
    have apart (j : SlotNo) (mem : j ∈ l) : j ≠ i := fun same => fresh (same ▸ mem)
    have nobody' : (drainSlot i s).slotWait = [] := by
      rw [drainSlot_eq nobody]
      exact nobody
    obtain ⟨state, slots⟩ := ih distinct (drainSlot i s) nobody'
    have requests : l.flatMap (drainRequests (drainSlot i s)) = l.flatMap (drainRequests s) :=
      List.flatMap_congr fun j mem => drainRequests_drainSlot nobody (apart j mem)
    have cells : l.flatMap (drainCells (drainSlot i s)) = l.flatMap (drainCells s) :=
      List.flatMap_congr fun j mem => drainCells_drainSlot nobody (apart j mem)
    have clean : (l.countP fun k => ((drainSlot i s).slot k).cleanEligible) =
        l.countP fun k => (s.slot k).cleanEligible :=
      List.countP_congr fun j mem => by rw [drainSlot_slot_ne nobody (apart j mem)]
    have dirty : (l.countP fun k => ((drainSlot i s).slot k).dirtyEligible) =
        l.countP fun k => (s.slot k).dirtyEligible :=
      List.countP_congr fun j mem => by rw [drainSlot_slot_ne nobody (apart j mem)]
    rw [requests, cells, clean, dirty, drainRecency_drainSlot nobody fresh] at state
    rw [List.foldl_cons]
    have here := drainSlot_slot nobody (i := i)
    have there (j : SlotNo) (other : j ≠ i) := drainSlot_slot_ne nobody other
    generalize l.foldl (fun s i => drainSlot i s) (drainSlot i s) = r at state slots
    have cons (p : SlotNo → Bool) : (i :: l).countP p = [i].countP p + l.countP p := List.countP_append (l₁ := [i])
    refine ⟨state.trans ?_, fun j => (slots j).trans ?_⟩
    · rw [drainSlot_eq nobody]
      simp only [List.flatMap_cons, List.reverse_append, List.append_assoc, cons, BitVec.ofNat_add, BitVec.add_assoc]
    · by_cases same : j = i
      · subst same
        rw [if_neg fresh, if_pos List.mem_cons_self, here]
      · simp only [there j same, List.mem_cons, same, false_or]

/-! ## Every slot (R45) -/

theorem flatMap_ite_nil {α β : Type} (p : α → Bool) (f : α → List β) (l : List α) :
    (l.flatMap fun a => if p a = true then f a else []) = (l.filter p).flatMap f := by
  induction l with
  | nil => rfl
  | cons a l ih =>
    rw [List.flatMap_cons, ih, List.filter_cons]
    split
    · rw [List.flatMap_cons]
    · rfl

theorem allSlots_nodup : allSlots.Nodup := List.nodup_finRange 256

theorem mem_allSlots (k : SlotNo) : k ∈ allSlots := List.mem_finRange k

theorem drainRequests_all (s : State) (l : List SlotNo) :
    l.flatMap (drainRequests s) = (l.filter fun k => (s.slot k).dirtyEligible).map fun k => writeBackAsked k s := by
  rw [List.map_eq_flatMap, ← flatMap_ite_nil]
  rfl

theorem drainCells_all (s : State) (l : List SlotNo) :
    l.flatMap (drainCells s) = (l.filter fun k => (s.slot k).cleanEligible).flatMap fun k => (s.slot k).cells := by
  rw [← flatMap_ite_nil]
  rfl

theorem drainRecency_all (s : State) :
    drainRecency s allSlots = s.recency.filter fun k => (s.slot k).state != .resident || (s.slot k).wbFault := by
  refine List.filter_congr fun k _ => ?_
  simp [mem_allSlots, Slot.leaves, bne]

theorem Slot.drainLeft_stays {x : Slot} (h : x.state ≠ .resident ∨ x.wbFault = true) : x.drainLeft = x := by
  refine if_neg fun leaves => ?_
  obtain ⟨resident, sound⟩ := x.leaves_iff.mp leaves
  exact h.elim (· resident) fun fault => Bool.noConfusion (sound.symm.trans fault)

theorem Slot.drainLeft_clean {x : Slot} (h : x.cleanEligible = true) : x.drainLeft = Slot.unused := by
  rw [Slot.cleanEligible_eq] at h
  simp only [Bool.and_eq_true, Bool.not_eq_true'] at h
  simp [Slot.drainLeft, h]

theorem Slot.drainLeft_dirty {x : Slot} (h : x.dirtyEligible = true) :
    x.drainLeft =
      { x with
        state := .evicting, waiting := [], rescued := false, dirty := false, wbFault := false, writeReqs := [.drain],
        nextReqs := [], record := { x.record with generation := x.record.generation + 1 } } := by
  rw [Slot.dirtyEligible_eq] at h
  simp only [Bool.and_eq_true, Bool.not_eq_true'] at h
  simp [Slot.drainLeft, h]

theorem Slot.drainLeft_owed {x : Slot} (resident : x.state = .resident) (sound : x.wbFault = false)
    (writing : x.writeInFlight = true) :
    x.drainLeft =
      { x with state := .evicting, waiting := [], rescued := false, nextReqs := x.nextReqs ++ [.drain] } :=
  (if_pos (x.leaves_iff.mpr ⟨resident, sound⟩)).trans (if_pos writing)

/-- R45: what the course leaves, by the slot's case. -/
theorem Slot.drainLeft_courses {x y : Slot} (left : y = x.drainLeft) :
    (x.state ≠ .resident ∨ x.wbFault = true → y = x) ∧ (x.cleanEligible = true → y = Slot.unused) ∧
      (x.dirtyEligible = true →
        y =
          { x with
            state := .evicting, waiting := [], rescued := false, dirty := false, wbFault := false,
            writeReqs := [.drain], nextReqs := [],
            record := { x.record with generation := x.record.generation + 1 } }) ∧
      (x.state = .resident → x.wbFault = false → x.writeInFlight = true →
        y = { x with state := .evicting, waiting := [], rescued := false, nextReqs := x.nextReqs ++ [.drain] }) :=
  ⟨fun h => left.trans (drainLeft_stays h), fun h => left.trans (drainLeft_clean h),
    fun h => left.trans (drainLeft_dirty h),
    fun resident sound writing => left.trans (drainLeft_owed resident sound writing)⟩

theorem exec_evictAll {s : State} (due : evictAllDue s = true) : exec .evictAll s = .next (settle (evictAllSlots s)) :=
  congrArg Host.Outcome.next (if_pos due)

/-- Settles O7: the evict-all event. -/
theorem evictAllTreatsEverySlot : Obligations.EvictAllTreatsEverySlot := by
  intro s due nobody clean dirty
  obtain ⟨state, slots⟩ := foldl_drainSlot allSlots allSlots_nodup
    (s.setEngine { s.engine with phase := .emptying }) nobody
  have runs := exec_evictAll due
  rw [evictAllSlots] at runs
  rw [drainRequests_all, drainCells_all, drainRecency_all, List.countP_eq_length_filter,
    List.countP_eq_length_filter] at state
  generalize allSlots.foldl (fun s i => drainSlot i s) (s.setEngine { s.engine with phase := .emptying }) = t
    at runs state slots
  have slots (i : SlotNo) : t.slot i = (s.slot i).drainLeft := (slots i).trans (if_pos (mem_allSlots i))
  refine ⟨t, runs, ?_⟩
  generalize t.slots = x at state
  subst state
  exact ⟨rfl, ⟨rfl, rfl, rfl, rfl⟩, keepsHost_refl s, rfl, rfl, nobody, rfl, rfl, rfl, rfl, fun i =>
    Slot.drainLeft_courses (slots i)⟩

end Sys2Proof.Machine
end

section
/-! The tests at the end of an event, one by one: what each leaves alone and what it leaves undone (R44, R190, R191, R40,
R60). -/

namespace Sys2Proof.Machine

/-! ## What the tests leave alone -/

/-- No request comes to wait for a slot, and no slot comes to be a clean victim. -/
def servedFrame (s t : State) : Prop :=
  (s.slotWait = [] → t.slotWait = []) ∧ (∀ k, k ∈ t.recency → k ∈ s.recency) ∧
    ∀ k, (t.slot k).cleanEligible = true → (s.slot k).cleanEligible = true

/-- The Change Unit stands, and the same tap contexts are in use. -/
def quietFrame (s t : State) : Prop := t.change = s.change ∧ ∀ c, (t.ctx c).isNone = (s.ctx c).isNone

theorem servedFrame_refl (s : State) : servedFrame s s := ⟨id, fun _ => id, fun _ => id⟩

theorem servedFrame_trans {s t u : State} (first : servedFrame s t) (second : servedFrame t u) : servedFrame s u := by
  obtain ⟨nobody, recency, clean⟩ := first
  obtain ⟨nobody', recency', clean'⟩ := second
  exact ⟨nobody' ∘ nobody, fun k => recency k ∘ recency' k, fun k => clean k ∘ clean' k⟩

theorem quietFrame_refl (s : State) : quietFrame s s := ⟨rfl, fun _ => rfl⟩

theorem quietFrame_trans {s t u : State} (first : quietFrame s t) (second : quietFrame t u) : quietFrame s u :=
  ⟨second.1.trans first.1, fun c => (second.2 c).trans (first.2 c)⟩

theorem quiet_congr {s t : State} (h : quietFrame s t) : quiet t = quiet s := by
  obtain ⟨change, contexts⟩ := h
  simp only [quiet, change, contexts]

/-! ## Reclaim (R44) -/

theorem reclaimDue_eq_false_iff (s : State) :
    reclaimDue s = false ↔ s.slotWait = [] ∨ victim Slot.cleanEligible s = none := by
  simp [reclaimDue, or_iff_not_imp_left]

theorem victim_eq_none_iff (p : Slot → Bool) (s : State) :
    victim p s = none ↔ ∀ k, k ∈ s.recency → p (s.slot k) = false := by
  simp [victim]

theorem reclaimDue_false_of_frame {s t : State} (idle : reclaimDue s = false) (h : servedFrame s t) :
    reclaimDue t = false := by
  obtain ⟨nobody, recency, clean⟩ := h
  rw [reclaimDue_eq_false_iff] at idle ⊢
  refine idle.imp nobody fun none => ?_
  rw [victim_eq_none_iff] at none ⊢
  exact fun k mem => Bool.eq_false_iff.mpr fun yes =>
    Bool.noConfusion ((none k (recency k mem)).symm.trans (clean k yes))

theorem reclaimRun_idle {s : State} (idle : reclaimDue s = false) : reclaimRun s = s := by
  rcases (reclaimDue_eq_false_iff s).mp idle with nobody | none
  · exact reclaimRun_nil s nobody
  · refine iterate_fixed ?_ _
    cases waits : s.slotWait with
    | nil => exact reclaimOne_nil waits
    | cons w ws => simp only [reclaimOne, waits, none]

theorem reclaimDue_reclaimRun (s : State) : reclaimDue (reclaimRun s) = false :=
  (reclaimDue_eq_false_iff _).mpr (reclaimRun_done s)

/-! ## Drain's course at a slot (R45, R191) -/

/-- R43: what a hand-over leaves alone. -/
theorem handOver_frame (i : SlotNo) (s : State) :
    (handOver i s).engine = s.engine ∧ quietFrame s (handOver i s) ∧ (s.slotWait = [] → (handOver i s).slotWait = []) := by
  cases waits : s.slotWait with
  | nil =>
    rw [handOver_nil i s waits]
    exact ⟨rfl, quietFrame_refl s, fun _ => waits⟩
  | cons w ws =>
    rw [handOver_cons waits]
    refine ⟨rfl, ⟨rfl, fun c => ?_⟩, fun none => absurd none nofun⟩
    have same := awaitAll_ctx (s.slotWait.filter fun v => waiterKey s v == waiterKey s w) s c
    refine (congrArg Option.isNone same).trans ?_
    split
    · exact Option.isNone_map
    · rfl

/-- R45: what the course at a slot leaves alone. -/
theorem drainSlot_frame (i : SlotNo) (s : State) :
    (drainSlot i s).engine = s.engine ∧ quietFrame s (drainSlot i s) ∧ servedFrame s (drainSlot i s) := by
  have written {x : Slot} (evicting : x.state = .evicting) (k : SlotNo)
      (clean : ((s.slots.set i.val x i.isLt).get k).cleanEligible = true) : (s.slot k).cleanEligible = true := by
    by_cases same : k = i
    · subst same
      rw [get_set_eq, Slot.cleanEligible_iff] at clean
      exact absurd (clean.1.symm.trans evicting) nofun
    · rwa [get_set_ne _ _ same] at clean
  have kept (k : SlotNo) : k ∈ s.recency.filter (· != i) → k ∈ s.recency := fun mem => (List.mem_filter.mp mem).1
  rw [drainSlot_eq_ite]
  split
  · split
    · rw [oweEviction_eq]
      exact ⟨rfl, quietFrame_refl s, id, kept, written rfl⟩
    · split
      · rw [dirtyEvict_reqs_eq]
        exact ⟨rfl, quietFrame_refl s, id, kept, written rfl⟩
      · obtain ⟨engine, quiet, nobody⟩ := handOver_frame i (cleanlyEvicted i s)
        have evicted : quietFrame s (cleanlyEvicted i s) := ⟨rfl, fun _ => rfl⟩
        rw [cleanEvict_eq]
        refine ⟨engine, quietFrame_trans evicted quiet, nobody, fun k mem => ?_, fun k clean => ?_⟩
        · rw [handOver_recency] at mem
          exact kept k mem
        · by_cases same : k = i
          · subst same
            obtain ⟨resident, _⟩ := (Slot.cleanEligible_iff _).mp clean
            rcases handOver_evicted_slot k s with free | ⟨fetching, _⟩
            · rw [free] at resident
              exact absurd resident nofun
            · exact absurd (resident.symm.trans fetching) nofun
          · rwa [handOver_slot_ne _ _ _ same, ← cleanEvict_eq, cleanEvict_slot_ne _ _ _ same] at clean
  · exact ⟨rfl, quietFrame_refl s, servedFrame_refl s⟩

theorem drainEvictSlot_frame (s : State) (i : SlotNo) :
    (drainEvictSlot s i).engine = s.engine ∧ quietFrame s (drainEvictSlot s i) ∧ servedFrame s (drainEvictSlot s i) := by
  rw [drainEvictSlot]
  split
  · exact ⟨rfl, quietFrame_refl s, servedFrame_refl s⟩
  · exact drainSlot_frame i s

/-- A fold of steps that leave engine, quiet and the waiting requests alone leaves them alone. -/
theorem foldl_frame {f : State → SlotNo → State}
    (step : ∀ s i, (f s i).engine = s.engine ∧ quietFrame s (f s i) ∧ servedFrame s (f s i)) (l : List SlotNo)
    (s : State) : (l.foldl f s).engine = s.engine ∧ quietFrame s (l.foldl f s) ∧ servedFrame s (l.foldl f s) := by
  induction l generalizing s with
  | nil => exact ⟨rfl, quietFrame_refl s, servedFrame_refl s⟩
  | cons i l ih =>
    obtain ⟨engine, quiet, served⟩ := step s i
    obtain ⟨engine', quiet', served'⟩ := ih (f s i)
    exact ⟨engine'.trans engine, quietFrame_trans quiet quiet', servedFrame_trans served served'⟩

/-! ## The evict-all test (R190) -/

theorem evictAllSlots_frame (s : State) :
    (evictAllSlots s).engine = { s.engine with phase := .emptying } ∧ servedFrame s (evictAllSlots s) := by
  obtain ⟨engine, _, served⟩ := foldl_frame (fun s i => drainSlot_frame i s) allSlots
    (s.setEngine { s.engine with phase := .emptying })
  exact ⟨engine, served⟩

theorem evictAllDue_of_phase {s : State} (h : s.engine.phase ≠ .ending) : evictAllDue s = false := by
  simp [evictAllDue, h]

theorem evictAllDue_of_state {s : State} (h : s.engine.state ≠ .draining) : evictAllDue s = false := by
  simp [evictAllDue, h]

theorem evictAllDue_evictAllSlots (s : State) : evictAllDue (evictAllSlots s) = false :=
  evictAllDue_of_phase (by rw [(evictAllSlots_frame s).1]; exact nofun)

theorem evictAllTest_idle {s : State} (idle : evictAllDue s = false) : evictAllTest s = s := if_neg (by simp [idle])

theorem evictAllTest_due {s : State} (due : evictAllDue s = true) : evictAllTest s = evictAllSlots s := if_pos due

theorem evictAllDue_evictAllTest (s : State) : evictAllDue (evictAllTest s) = false := by
  cases due : evictAllDue s with
  | true => rw [evictAllTest_due due, evictAllDue_evictAllSlots]
  | false => rw [evictAllTest_idle due, due]

theorem evictAllTest_served (s : State) : servedFrame s (evictAllTest s) := by
  cases due : evictAllDue s with
  | true => rw [evictAllTest_due due]; exact (evictAllSlots_frame s).2
  | false => rw [evictAllTest_idle due]; exact servedFrame_refl s

theorem evictAllDue_congr {s t : State} (engine : t.engine = s.engine) (h : quietFrame s t) :
    evictAllDue t = evictAllDue s := by
  rw [evictAllDue, evictAllDue, engine, quiet_congr h]

/-! ## The evictions of a drain (R191) -/

theorem drainEvictions_frame (s : State) :
    (drainEvictions s).engine = s.engine ∧ quietFrame s (drainEvictions s) ∧ servedFrame s (drainEvictions s) := by
  rw [drainEvictions]
  split
  · exact foldl_frame drainEvictSlot_frame allSlots s
  · exact ⟨rfl, quietFrame_refl s, servedFrame_refl s⟩

theorem drainEvictions_due {s : State} (draining : s.engine.state = .draining) (emptying : s.engine.phase = .emptying) :
    drainEvictions s = allSlots.foldl drainEvictSlot s := if_pos (by simp [draining, emptying])

theorem drainEvictSlot_idle {s : State} {i : SlotNo} (idle : ¬ (s.slot i).drainsNow) : drainEvictSlot s i = s := by
  rw [drainEvictSlot]
  split
  · rfl
  · next writing =>
    rw [drainSlot_eq_ite]
    refine if_neg fun leaves => idle ?_
    obtain ⟨resident, sound⟩ := (Slot.leaves_iff _).mp leaves
    exact ⟨resident, sound, Bool.eq_false_iff.mpr writing⟩

/-- R191: with no slot at which the drain has work, nothing is evicted. -/
theorem drainEvictions_idle {s : State}
    (idle : s.engine.state = .draining → s.engine.phase = .emptying → ∀ i, ¬ (s.slot i).drainsNow) :
    drainEvictions s = s := by
  by_cases drains : s.engine.state = .draining ∧ s.engine.phase = .emptying
  · rw [drainEvictions_due drains.1 drains.2]
    exact List.foldl_fixed' (fun i => drainEvictSlot_idle (idle drains.1 drains.2 i)) allSlots
  · exact if_neg (by simpa using drains)

theorem drainSlot_slot_apart {i j : SlotNo} (s : State) (apart : j ≠ i) : (drainSlot i s).slot j = s.slot j := by
  rw [drainSlot_eq_ite]
  split
  · split
    · rw [oweEviction_eq]
      exact get_set_ne _ _ apart
    · split
      · exact dirtyEvict_slot_ne _ _ _ _ apart
      · rw [handOver_slot_ne _ _ _ apart, cleanEvict_slot_ne _ _ _ apart]
  · rfl

theorem not_drainsNow_of_state {x : Slot} (h : x.state ≠ .resident) : ¬ x.drainsNow := fun now => h now.1

/-- R191: a slot that the course has treated has no work left for the drain. -/
theorem drainSlot_not_drainsNow (i : SlotNo) (s : State) : ¬ ((drainSlot i s).slot i).drainsNow := by
  rw [drainSlot_eq_ite]
  split
  · refine not_drainsNow_of_state ?_
    split
    · rw [oweEviction_eq, State.slot, get_set_eq]
      exact nofun
    · split
      · rw [dirtyEvict_slot]
        exact nofun
      · rw [cleanEvict_eq]
        rcases handOver_evicted_slot i s with free | ⟨fetching, _⟩
        · rw [free]
          exact nofun
        · rw [fetching]
          exact nofun
  · next stays => exact fun ⟨resident, sound, _⟩ => stays ((Slot.leaves_iff _).mpr ⟨resident, sound⟩)

theorem drainEvictSlot_not_drainsNow (i : SlotNo) (s : State) : ¬ ((drainEvictSlot s i).slot i).drainsNow := by
  rw [drainEvictSlot]
  split
  · next writing => exact fun ⟨_, _, idle⟩ => Bool.noConfusion (idle.symm.trans writing)
  · exact drainSlot_not_drainsNow i s

theorem drainEvictSlot_slot_ne {i j : SlotNo} (s : State) (apart : j ≠ i) : (drainEvictSlot s i).slot j = s.slot j := by
  rw [drainEvictSlot]
  split
  · rfl
  · exact drainSlot_slot_apart s apart

/-- R191: the evictions at several slots leave the others alone, and none of their own with work. -/
theorem foldl_drainEvictSlot (l : List SlotNo) (s : State) (j : SlotNo) :
    (j ∉ l → (l.foldl drainEvictSlot s).slot j = s.slot j) ∧
      (j ∈ l → ¬ ((l.foldl drainEvictSlot s).slot j).drainsNow) := by
  induction l generalizing s with
  | nil => exact ⟨fun _ => rfl, nofun⟩
  | cons i l ih =>
    obtain ⟨out, mem⟩ := ih (drainEvictSlot s i)
    rw [List.mem_cons, List.foldl_cons]
    refine ⟨fun neither => ?_, fun either => ?_⟩
    · obtain ⟨apart, notIn⟩ := not_or.mp neither
      rw [out notIn, drainEvictSlot_slot_ne s apart]
    · by_cases later : j ∈ l
      · exact mem later
      · obtain rfl := either.resolve_right later
        rw [out later]
        exact drainEvictSlot_not_drainsNow j s

theorem drainEvictions_not_drainsNow {s : State} (draining : s.engine.state = .draining)
    (emptying : s.engine.phase = .emptying) (i : SlotNo) : ¬ ((drainEvictions s).slot i).drainsNow := by
  rw [drainEvictions_due draining emptying]
  exact (foldl_drainEvictSlot allSlots s i).2 (mem_allSlots i)

/-- R191: what the evictions leave at each slot while no request waits for one. -/
theorem foldl_drainEvictSlot_slot (l : List SlotNo) (distinct : l.Nodup) (s : State) (nobody : s.slotWait = [])
    (j : SlotNo) :
    (l.foldl drainEvictSlot s).slot j =
      if j ∈ l ∧ (s.slot j).writeInFlight = false then (s.slot j).drainLeft else s.slot j := by
  induction l generalizing s with
  | nil => exact (if_neg fun both => nomatch both.1).symm
  | cons i l ih =>
    obtain ⟨fresh, distinct⟩ := List.nodup_cons.mp distinct
    obtain ⟨_, _, waits, _⟩ := drainEvictSlot_frame s i
    rw [List.foldl_cons]
    by_cases same : j = i
    · subst same
      rw [(foldl_drainEvictSlot l (drainEvictSlot s j) j).1 fresh, drainEvictSlot]
      cases writing : (s.slot j).writeInFlight with
      | true => simp
      | false => simp [drainSlot_slot nobody]
    · rw [ih distinct (drainEvictSlot s i) (waits nobody), drainEvictSlot_slot_ne s same]
      simp only [List.mem_cons, same, false_or]

/-! ## The drain's end (R191) -/

theorem drainDue_of_state {s : State} (h : s.engine.state ≠ .draining) : drainDue s = false := by
  simp [drainDue, h]

theorem drainTest_idle {s : State} (idle : drainDue s = false) : drainTest s = s := if_neg (by simp [idle])

theorem drainTest_due {s : State} (due : drainDue s = true) : drainTest s = finishDrain s := if_pos due

/-- R191: the test either leaves the state or ends the drain in STOPPED. -/
theorem drainTest_cases (s : State) :
    drainDue s = false ∧ drainTest s = s ∨ drainDue s = true ∧ drainTest s = finishDrain s := by
  cases due : drainDue s with
  | false => exact .inl ⟨rfl, drainTest_idle due⟩
  | true => exact .inr ⟨rfl, drainTest_due due⟩

theorem finishDrain_stopped (s : State) : (finishDrain s).engine.state ≠ .draining := by
  rw [finishDrain_eq]
  exact nofun

theorem drainDue_drainTest (s : State) : drainDue (drainTest s) = false := by
  rcases drainTest_cases s with ⟨idle, same⟩ | ⟨_, ends⟩
  · rw [same, idle]
  · rw [ends, drainDue_of_state (finishDrain_stopped s)]

theorem drainTest_served (s : State) : servedFrame s (drainTest s) := by
  rcases drainTest_cases s with ⟨_, same⟩ | ⟨_, ends⟩
  · rw [same]
    exact servedFrame_refl s
  · rw [ends, finishDrain_eq]
    exact servedFrame_refl s

/-- R191: at the end of a drain every slot is FREE, or RESIDENT with wb_fault. -/
theorem slot_of_drainDue {s : State} (due : drainDue s = true) (i : SlotNo) :
    (s.slot i).state = .free ∨ (s.slot i).state = .resident ∧ (s.slot i).wbFault = true := by
  simp only [drainDue, Bool.and_eq_true, List.all_eq_true] at due
  obtain ⟨⟨⟨_, slots⟩, _⟩, _⟩ := due
  have drained := slots (s.slot i) (Vector.mem_toList_iff.mpr (Vector.getElem_mem i.isLt))
  simpa [Slot.drained] using drained

/-! ## The cleaner (R40) -/

/-- R40: a turn of the cleaner does nothing, or writes one dirty eligible slot. -/
theorem cleanerOne_cases (s : State) :
    cleanerOne s = s ∨
      ∃ i, cleanerActs s = true ∧ victim Slot.dirtyEligible s = some i := by
  rw [cleanerOne]
  split
  · next acts =>
    cases found : victim Slot.dirtyEligible s with
    | none => exact .inl rfl
    | some i => exact .inr ⟨i, acts, rfl⟩
  · exact .inl rfl

/-- R40, R38: what the cleaner's write leaves at its slot. -/
def Slot.cleanerWritten (x : Slot) : Slot :=
  { x with
    record := { x.record with generation := x.record.generation + 1 }, dirty := false, wbFault := false,
    writeInFlight := true, cleaner := true, writeReqs := [], nextReqs := [] }

/-- R40: what a turn of the cleaner leaves alone. -/
theorem cleanerOne_writes (s : State) :
    ∃ slots counts port, cleanerOne s = { s with slots := slots, counts := counts, port := port } := by
  rcases cleanerOne_cases s with same | ⟨i, acts, found⟩
  · exact ⟨_, _, _, same⟩
  · exact ⟨_, _, _, cleanerOne_eq acts found⟩

/-- R40: a turn of the cleaner at each slot. -/
theorem cleanerOne_slot (s : State) (i : SlotNo) :
    (cleanerOne s).slot i = s.slot i ∨
      (s.slot i).dirtyEligible = true ∧ (cleanerOne s).slot i = (s.slot i).cleanerWritten := by
  rcases cleanerOne_cases s with same | ⟨k, acts, found⟩
  · exact .inl (by rw [same])
  · rw [cleanerOne_eq acts found]
    by_cases here : i = k
    · subst here
      exact .inr ⟨victim_satisfies found, get_set_eq _ i _⟩
    · exact .inl (get_set_ne _ _ here)

theorem cleanerWritten_writing (x : Slot) : x.cleanerWritten.eligible = false := by
  simp [Slot.eligible, Slot.cleanerWritten]

theorem cleanerOne_served (s : State) : servedFrame s (cleanerOne s) := by
  obtain ⟨slots, counts, port, same⟩ := cleanerOne_writes s
  refine ⟨fun nobody => by rw [same]; exact nobody, fun k mem => by rw [same] at mem; exact mem, fun k clean => ?_⟩
  rcases cleanerOne_slot s k with kept | ⟨_, written⟩
  · rwa [kept] at clean
  · rw [written, Slot.cleanEligible, cleanerWritten_writing] at clean
    exact absurd clean nofun

theorem cleanerRun_served (s : State) : servedFrame s (cleanerRun s) :=
  servedFrame_trans (cleanerOne_served s) (cleanerOne_served (cleanerOne s))

theorem cleanerRun_writes (s : State) :
    ∃ slots counts port, cleanerRun s = { s with slots := slots, counts := counts, port := port } := by
  obtain ⟨slots, counts, port, first⟩ := cleanerOne_writes s
  obtain ⟨slots', counts', port', second⟩ := cleanerOne_writes (cleanerOne s)
  refine ⟨slots', counts', port', ?_⟩
  rw [cleanerRun, second, first]

theorem cleanerOne_idle {s : State} (idle : s.running = false) : cleanerOne s = s := by
  have rests : ¬ cleanerActs s = true := by simp [cleanerActs, idle]
  rw [cleanerOne, if_neg rests]

theorem cleanerRun_idle {s : State} (idle : s.running = false) : cleanerRun s = s := by
  rw [cleanerRun, cleanerOne_idle idle, cleanerOne_idle idle]

theorem cleanerRun_cleanerOne (s : State) : cleanerRun (cleanerOne s) = cleanerRun s := cleanerRun_fixed s

/-- R40: the cleaner stops at its bound, with slots enough, or for want of a dirty victim. -/
theorem cleanerRun_done {s : State} (running : (cleanerRun s).running = true) :
    2 ≤ (cleanerRun s).counts.cleanerWrites ∨
      16 ≤ slotCount (fun x => x.state == .free || x.cleanEligible) (cleanerRun s) ∨
      victim Slot.dirtyEligible (cleanerRun s) = none := by
  have fixed := cleanerRun_fixed s
  generalize cleanerRun s = t at fixed running
  by_cases acts : cleanerActs t = true
  · refine .inr (.inr ?_)
    cases found : victim Slot.dirtyEligible t with
    | none => rfl
    | some i =>
      have counts : (cleanerOne t).counts.cleanerWrites = t.counts.cleanerWrites + 1 := by
        rw [cleanerOne_eq acts found]
      rw [fixed] at counts
      omega
  · simp only [cleanerActs, running, Bool.true_and, Bool.and_eq_true, decide_eq_true_eq] at acts
    omega

/-- R40: the cleaner at each slot. -/
theorem cleanerRun_slot (s : State) (i : SlotNo) :
    (cleanerRun s).slot i = s.slot i ∨
      (s.slot i).dirtyEligible = true ∧ (cleanerRun s).slot i = (s.slot i).cleanerWritten := by
  rw [cleanerRun]
  rcases cleanerOne_slot s i with first | ⟨dirty, first⟩
  · rw [← first]
    exact cleanerOne_slot (cleanerOne s) i
  · rcases cleanerOne_slot (cleanerOne s) i with second | ⟨again, _⟩
    · exact .inr ⟨dirty, second.trans first⟩
    · rw [first, Slot.dirtyEligible, cleanerWritten_writing] at again
      exact absurd again nofun

/-! ## The port (R60) -/

/-- R60, R191: a request that begins is still queued or in flight. -/
theorem writeWaiting_beginRequests (s : State) : writeWaiting (beginRequests s) = writeWaiting s := by
  have begun : (fun o : Op => o.request.kind == .writeBack) ∘ begunAt s.clock.timeBase =
      fun q : Request => q.kind == .writeBack := rfl
  have queue : s.port.list.any (fun q => q.kind == .writeBack) =
      ((s.port.list.take (4 - s.port.inFlight.length)).any (fun q => q.kind == .writeBack) ||
        (s.port.list.drop (4 - s.port.inFlight.length)).any fun q => q.kind == .writeBack) := by
    rw [← List.any_append, List.take_append_drop]
  rw [beginRequests_eq]
  simp only [writeWaiting, List.any_append, List.any_map, begun, queue]
  ac_rfl

end Sys2Proof.Machine
end

section
/-! The tests at the end of an event taken together (log entry 4), with the settling of O3. -/

namespace Sys2Proof.Machine

theorem settle_eq (s : State) :
    settle s = beginRequests (cleanerRun (drainTest (drainEvictions (evictAllTest (reclaimRun s))))) := rfl

/-- Neither reclaim nor the evict-all event is due, and a drain has no slot to evict. -/
theorem settle_eq_of_idle {s : State} (reclaimed : reclaimDue s = false) (ended : evictAllDue s = false)
    (evicted : s.engine.state = .draining → s.engine.phase = .emptying → ∀ i, ¬ (s.slot i).drainsNow) :
    settle s = beginRequests (cleanerRun (drainTest s)) := by
  rw [settle_eq, reclaimRun_idle reclaimed, evictAllTest_idle ended, drainEvictions_idle evicted]

/-- The tests with no drain under way. -/
theorem settle_eq_of_not_draining {s : State} (reclaimed : reclaimDue s = false) (other : s.engine.state ≠ .draining) :
    settle s = beginRequests (cleanerRun s) := by
  rw [settle_eq_of_idle reclaimed (evictAllDue_of_state other) (fun draining => absurd draining other),
    drainTest_idle (drainDue_of_state other)]

theorem running_iff (s : State) : s.running = true ↔ s.engine.state = .running := by
  simp [State.running]

theorem not_draining_of_running {s : State} (running : s.running = true) : s.engine.state ≠ .draining := by
  rw [(running_iff s).mp running]
  exact nofun

/-! ## What the tests leave alone -/

theorem settle_keeps (s : State) : keepsHost s (settle s) ∧ keepsUnits s (settle s) :=
  ⟨keepsHost_of_blind fun h => settle_blind h.toCacheBlind s, settle_blind lines_cacheBlind s,
    settle_blind change_cacheBlind s, settle_blind urgent_cacheBlind s, settle_blind marks_cacheBlind s⟩

/-! ## What the tests leave undone -/

/-- R60: the beginning of requests writes the port alone. -/
theorem beginRequests_writes (s : State) : ∃ port, beginRequests s = { s with port := port } :=
  ⟨_, beginRequests_eq s⟩

/-- R60: after the tests no request could begin. -/
theorem settle_begun (s : State) : (settle s).port.list = [] ∨ 4 ≤ (settle s).port.inFlight.length := by
  rw [settle_eq]
  exact beginRequests_done _

/-- R44: after the tests no reclaim is due. -/
theorem reclaimDue_settle (s : State) : reclaimDue (settle s) = false := by
  have served : servedFrame (reclaimRun s) (cleanerRun (drainTest (drainEvictions (evictAllTest (reclaimRun s))))) :=
    servedFrame_trans (evictAllTest_served _)
      (servedFrame_trans (drainEvictions_frame _).2.2
        (servedFrame_trans (drainTest_served _) (cleanerRun_served _)))
  have idle := reclaimDue_false_of_frame (reclaimDue_reclaimRun s) served
  rw [settle_eq]
  generalize cleanerRun (drainTest (drainEvictions (evictAllTest (reclaimRun s)))) = t at idle
  obtain ⟨port, begun⟩ := beginRequests_writes t
  rw [begun]
  exact idle

/-- R190, R191: after the test for the drain's end, neither event of a drain is due, and a drain that goes on in EMPTYING
has no slot to evict. -/
theorem drainTest_leaves (s : State) :
    let t := drainTest (drainEvictions (evictAllTest (reclaimRun s)))
    evictAllDue t = false ∧ drainDue t = false ∧
      (t.engine.state = .draining → t.engine.phase = .emptying → ∀ i, ¬ (t.slot i).drainsNow) := by
  intro t
  have ended := evictAllDue_evictAllTest (reclaimRun s)
  obtain ⟨engine, quiet, _⟩ := drainEvictions_frame (evictAllTest (reclaimRun s))
  rcases drainTest_cases (drainEvictions (evictAllTest (reclaimRun s))) with ⟨idle, same⟩ | ⟨_, ends⟩
  · have same : t = drainEvictions (evictAllTest (reclaimRun s)) := same
    rw [same]
    refine ⟨(evictAllDue_congr engine quiet).trans ended, idle, fun draining emptying => ?_⟩
    rw [engine] at draining emptying
    exact drainEvictions_not_drainsNow draining emptying
  · have ends : t = finishDrain _ := ends
    have stopped : t.engine.state ≠ .draining := by
      rw [ends]
      exact finishDrain_stopped _
    exact ⟨evictAllDue_of_state stopped, drainDue_of_state stopped, fun draining => absurd draining stopped⟩

/-- R190, R191: the cleaner and the port's test leave that so. -/
theorem settle_leaves (s : State) :
    evictAllDue (settle s) = false ∧ drainDue (settle s) = false ∧
      ((settle s).engine.state = .draining → (settle s).engine.phase = .emptying →
        ∀ i, ¬ ((settle s).slot i).drainsNow) := by
  have left := drainTest_leaves s
  rw [settle_eq]
  generalize drainTest (drainEvictions (evictAllTest (reclaimRun s))) = t at left
  obtain ⟨port, begun⟩ := beginRequests_writes (cleanerRun t)
  have waiting := writeWaiting_beginRequests (cleanerRun t)
  have cleaned : evictAllDue (cleanerRun t) = false ∧ drainDue (cleanerRun t) = false ∧
      ((cleanerRun t).engine.state = .draining → (cleanerRun t).engine.phase = .emptying →
        ∀ i, ¬ ((cleanerRun t).slot i).drainsNow) := by
    cases running : t.running with
    | false =>
      rw [cleanerRun_idle running]
      exact left
    | true =>
      have other : (cleanerRun t).engine.state ≠ .draining := by
        obtain ⟨slots, counts, port, writes⟩ := cleanerRun_writes t
        rw [writes]
        exact not_draining_of_running running
      exact ⟨evictAllDue_of_state other, drainDue_of_state other, fun draining => absurd draining other⟩
  obtain ⟨ended, drained, idle⟩ := cleaned
  have same : drainDue (beginRequests (cleanerRun t)) = drainDue (cleanerRun t) := by
    rw [drainDue, drainDue, waiting, begun]
  rw [same, begun]
  exact ⟨ended, drained, idle⟩

/-- R40: after the tests no cleaner write is to be made. -/
theorem settle_cleaned (s : State) (running : (settle s).running = true) :
    2 ≤ (settle s).counts.cleanerWrites ∨
      16 ≤ slotCount (fun x => x.state == .free || x.cleanEligible) (settle s) ∨
      victim Slot.dirtyEligible (settle s) = none := by
  rw [settle_eq] at running ⊢
  generalize drainTest (drainEvictions (evictAllTest (reclaimRun s))) = t at running ⊢
  have done := cleanerRun_done (s := t)
  generalize cleanerRun t = u at running done ⊢
  obtain ⟨port, begun⟩ := beginRequests_writes u
  rw [begun] at running ⊢
  exact done running

/-! ## The rows of the tests -/

theorem settle_reclaimOne (s : State) : settle (reclaimOne s) = settle s := by
  rw [settle_eq, settle_eq, reclaimRun_reclaimOne]

theorem settle_evictAllSlots {s : State} (reclaimed : reclaimDue s = false) (due : evictAllDue s = true) :
    settle (evictAllSlots s) = settle s := by
  have reclaimed' := reclaimDue_false_of_frame reclaimed (evictAllSlots_frame s).2
  rw [settle_eq, settle_eq, reclaimRun_idle reclaimed', reclaimRun_idle reclaimed, evictAllTest_due due,
    evictAllTest_idle (evictAllDue_evictAllSlots s)]

/-- R191: at a drain's end no slot is a victim, and none is left to evict. -/
theorem idle_of_drainDue {s : State} (due : drainDue s = true) :
    reclaimDue s = false ∧ evictAllDue s = false ∧ ∀ i, ¬ (s.slot i).drainsNow := by
  refine ⟨(reclaimDue_eq_false_iff s).mpr (.inr ((victim_eq_none_iff _ s).mpr fun k _ => ?_)),
    evictAllDue_of_phase ?_, fun i ⟨resident, sound, _⟩ => ?_⟩
  · refine Bool.eq_false_iff.mpr fun clean => ?_
    obtain ⟨resident, _, sound, _⟩ := (Slot.cleanEligible_iff _).mp clean
    rcases slot_of_drainDue due k with free | ⟨_, fault⟩
    · exact absurd (free.symm.trans resident) nofun
    · exact Bool.noConfusion (sound.symm.trans fault)
  · intro ending
    simp [drainDue, ending] at due
  · rcases slot_of_drainDue due i with free | ⟨_, fault⟩
    · exact absurd (free.symm.trans resident) nofun
    · exact Bool.noConfusion (sound.symm.trans fault)

theorem settle_finishDrain {s : State} (due : drainDue s = true) : settle (finishDrain s) = settle s := by
  obtain ⟨reclaimed, ended, idle⟩ := idle_of_drainDue due
  have reclaimed' : reclaimDue (finishDrain s) = false := by
    rw [finishDrain_eq]
    exact reclaimed
  rw [settle_eq_of_idle reclaimed ended fun _ _ => idle, drainTest_due due,
    settle_eq_of_not_draining reclaimed' (finishDrain_stopped s)]

theorem settle_cleanerOne {s : State} (reclaimed : reclaimDue s = false) (due : cleanerDue s = true) :
    settle (cleanerOne s) = settle s := by
  obtain ⟨acts, _⟩ := (cleanerDue_iff s).mp due
  have other : s.engine.state ≠ .draining := by
    rw [((cleanerActs_iff s).mp acts).1]
    exact nofun
  have other' : (cleanerOne s).engine.state ≠ .draining := by
    obtain ⟨slots, counts, port, writes⟩ := cleanerOne_writes s
    rw [writes]
    exact other
  rw [settle_eq_of_not_draining reclaimed other,
    settle_eq_of_not_draining (reclaimDue_false_of_frame reclaimed (cleanerOne_served s)) other', cleanerRun_cleanerOne]

/-! ## The tests with no request waiting for a slot -/

theorem reclaimDue_nil {s : State} (nobody : s.slotWait = []) : reclaimDue s = false :=
  (reclaimDue_eq_false_iff s).mpr (.inl nobody)

/-- R40, R60: the tests while the engine is RUNNING. -/
theorem settle_running {s : State} (running : s.running = true) (nobody : s.slotWait = []) :
    settle s = beginRequests (cleanerRun s) :=
  settle_eq_of_not_draining (reclaimDue_nil nobody) (not_draining_of_running running)

/-- R40: with no cleaner write to be made, the cleaner rests. -/
theorem cleanerRun_of_not_due {s : State} (idle : cleanerDue s = false) : cleanerRun s = s := by
  have rests : cleanerOne s = s := by
    rcases cleanerOne_cases s with same | ⟨i, acts, found⟩
    · exact same
    · exact Bool.noConfusion (idle.symm.trans ((cleanerDue_iff s).mpr ⟨acts, i, found⟩))
  rw [cleanerRun, rests, rests]

theorem Slot.drainLeft_ineligible {x : Slot} (clean : ¬ x.cleanEligible = true) (dirty : ¬ x.dirtyEligible = true)
    (idle : x.writeInFlight = false) : x.drainLeft = x := by
  refine if_neg fun leaves => ?_
  obtain ⟨resident, sound⟩ := x.leaves_iff.mp leaves
  cases flag : x.dirty with
  | false => exact clean (x.cleanEligible_iff.mpr ⟨resident, idle, sound, flag⟩)
  | true => exact dirty (x.dirtyEligible_iff.mpr ⟨resident, idle, sound, flag⟩)

/-- R191: what the tests leave at each slot while a drain is EMPTYING. -/
theorem settle_draining_slot {s : State} (draining : s.engine.state = .draining) (emptying : s.engine.phase = .emptying)
    (nobody : s.slotWait = []) (i : SlotNo) :
    (settle s).slot i = if (s.slot i).writeInFlight = false then (s.slot i).drainLeft else s.slot i := by
  have ended : evictAllDue s = false := evictAllDue_of_phase (by rw [emptying]; exact nofun)
  have evicted := foldl_drainEvictSlot_slot allSlots allSlots_nodup s nobody i
  have engine := (drainEvictions_frame s).1
  simp only [mem_allSlots, true_and] at evicted
  rw [← drainEvictions_due draining emptying] at evicted
  rw [settle_eq, reclaimRun_idle (reclaimDue_nil nobody), evictAllTest_idle ended, ← evicted]
  generalize drainEvictions s = t at engine
  have rests : cleanerRun (drainTest t) = drainTest t := by
    refine cleanerRun_idle (Bool.eq_false_iff.mpr fun running => ?_)
    rcases drainTest_cases t with ⟨_, same⟩ | ⟨_, ends⟩
    · rw [same, running_iff, engine, draining] at running
      exact absurd running nofun
    · rw [ends, finishDrain_eq] at running
      exact absurd running nofun
  obtain ⟨port, begun⟩ := beginRequests_writes (drainTest t)
  rw [rests, begun]
  rcases drainTest_cases t with ⟨_, same⟩ | ⟨_, ends⟩
  · rw [same]
    rfl
  · rw [ends, finishDrain_eq]
    rfl

/-- Settles O3: the tests at the end of an event. -/
theorem testsAtTheEndOfAnEvent : Obligations.TestsAtTheEndOfAnEvent := by
  refine ⟨settle_keeps, fun s => ?_, fun s => ⟨fun due => ?_, fun idle due => ?_, fun due => ?_, fun idle due => ?_⟩,
    fun s ⟨reclaimed, ended, drained, cleaned, idle⟩ => ?_, fun s running nobody => ?_,
    fun s i draining emptying nobody => ?_⟩
  · obtain ⟨ended, drained, idle⟩ := settle_leaves s
    exact ⟨settle_begun s, (reclaimDue_eq_false_iff _).mp (reclaimDue_settle s), settle_cleaned s, ended, drained,
      idle⟩
  · rw [exec_reclaim due, settle_reclaimOne]
  · rw [exec_evictAll due, settle_evictAllSlots idle due]
  · have runs : exec .drainComplete s = .next (settle (finishDrain s)) := congrArg Host.Outcome.next (if_pos due)
    rw [runs, settle_finishDrain due]
  · rw [exec_cleanerWrite due, settle_cleanerOne idle due]
  · rw [settle_eq_of_idle reclaimed ended idle, drainTest_idle drained, cleanerRun_of_not_due cleaned]
    exact beginRequests_eq s
  · obtain ⟨slots, counts, port, writes⟩ := cleanerRun_writes s
    obtain ⟨port', begun⟩ := beginRequests_writes (cleanerRun s)
    have each (i : SlotNo) := cleanerRun_slot s i
    rw [settle_running running nobody, begun]
    refine ⟨each, ?_⟩
    rw [writes]
    exact ⟨rfl, nobody, rfl, rfl, rfl, rfl⟩
  · rw [settle_draining_slot draining emptying nobody]
    by_cases clean : (s.slot i).cleanEligible = true
    · have idle := ((Slot.cleanEligible_iff _).mp clean).2.1
      rw [if_pos clean, if_pos idle, Slot.drainLeft_clean clean]
    · rw [if_neg clean]
      by_cases dirty : (s.slot i).dirtyEligible = true
      · have idle := ((Slot.dirtyEligible_iff _).mp dirty).2.1
        rw [if_pos dirty, if_pos idle, Slot.drainLeft_dirty dirty]
      · rw [if_neg dirty]
        split
        · next idle => exact Slot.drainLeft_ineligible clean dirty idle
        · rfl

end Sys2Proof.Machine
end
